-- ==== Sys2Proof/Word.lean ====
section
/-! DEFINITION. The bit-vector types of the block's registers (spec/00_scope.md R8). -/

namespace Sys2Proof

/-- A byte is 8 bits (R8). -/
abbrev Byte := BitVec 8

/-- The 16-bit registers: IN_LEN, OUT_LEN, CRC_ACC, CALC_CRC, TXID, RX_TXID (spec/10_state.md R30-R35). -/
abbrev Half := BitVec 16

/-- A host bus word, and the command word (spec/20_memory.md R61, spec/30_encoding.md R90). -/
abbrev Word := BitVec 32

/-- A byte offset into the 16 KiB window (spec/20_memory.md R60). -/
abbrev Offset := BitVec 14

end Sys2Proof
end

