-- ==== Sys2Proof/Config.lean ====
section
/-! DEFINITION. What an implementation fixes (BUF_SIZE) and the free values of the spec's unspecified reads
(spec/00_scope.md R7; spec/93_implementation_defined.md U1-U3, U10). -/

namespace Sys2Proof

/-- The implementation parameters that a rule of the block depends on: BUF_SIZE alone (R7, U10; log 1). -/
structure Config where
  bufSize : Nat
  deriving DecidableEq, Repr

/-- BUF_SIZE defaults to 260 (R7). -/
def Config.default : Config := { bufSize := 260 }

/-- What the storage of IN byte `i` yields when the byte is unspecified, at step number `draw` (U1, U3; log 3, log 4).
A free value: no body, so no proof can see it. -/
opaque Config.freeInByte : Nat → Nat → Byte

/-- What the host reads from the OUT word of byte `i` when the byte is unspecified, at step number `draw` (U1; log 3). -/
opaque Config.freeOutByte : Nat → Nat → Byte

/-- What a host read returns while BUSY = 1, but for ID, PARAM, STATUS and INT_EN, at step number `draw`
(spec/20_memory.md R65, U2; log 3). -/
opaque Config.freeWord : Nat → Word

end Sys2Proof
end

