-- ==== Sys2Proof/Syntax.lean ====
section
/-! DEFINITION. The instruction set: the eight commands of MBF-CMD revision 1 (spec/30_encoding.md R92). -/

namespace Sys2Proof

/-- One constructor per row of spec/opcode_table.json. A command carries no operand field: every operand is implicit,
read from the registers and buffers when the engine performs it (spec/30_encoding.md R91). -/
inductive Instr where
  | nop
  | crcInit
  | crcUpdate
  | rtuWrap
  | rtuUnwrap
  | tcpWrap
  | tcpUnwrap
  | softReset
  deriving DecidableEq, Repr

end Sys2Proof
end

