-- ==== Sys2Proof/WellFormed.lean ====
section
/-! DEFINITION. Which terms are well formed: command words, instructions, configurations. -/

namespace Sys2Proof

/-- RSVD, bits [31:4] of a command word, must be zero (spec/30_encoding.md R90, R93). -/
def reservedBitsZero (w : Word) : Bool := w.extractLsb' 4 28 == 0

/-- OP, bits [3:0], must be one of the assigned selectors 0x0 to 0x7 (spec/30_encoding.md R92, R93). -/
def opAssigned (w : Word) : Bool := w.extractLsb' 0 4 < 8

/-- A command word is legal when both hold (R93). -/
def commandWordLegal (w : Word) : Bool := reservedBitsZero w && opAssigned w

/-- A command has no operand field (R91), so there is nothing in an instruction that could be out of range. -/
def Instr.wellFormed (_i : Instr) : Bool := true

/-- BUF_SIZE is an integer in 8..1024 (spec/00_scope.md R7). -/
abbrev Config.legal (c : Config) : Prop := 8 ≤ c.bufSize ∧ c.bufSize ≤ 1024

end Sys2Proof
end

