-- ==== Sys2Proof/Decode.lean ====
section
/-! DEFINITION. The command word's decoder, total and rejecting by name (spec/30_encoding.md R94), and after it the
encoder (R92). -/

namespace Sys2Proof

/-- Why a command word is illegal (spec/30_encoding.md R93). -/
inductive IllegalWord where
  /-- a bit of [31:4] is set, whatever OP is -/
  | reservedBitSet
  /-- OP is in 0x8 to 0xF -/
  | reservedOp
  deriving DecidableEq, Repr

/-- What a command word decodes to. -/
inductive Decoded where
  | instr (i : Instr)
  | illegal (why : IllegalWord)
  deriving DecidableEq, Repr

/-- The OP selector's meaning (R92, R94). -/
def decodeOp (op : Nat) : Decoded :=
  match op with
  | 0x0 => .instr .nop
  | 0x1 => .instr .crcInit
  | 0x2 => .instr .crcUpdate
  | 0x3 => .instr .rtuWrap
  | 0x4 => .instr .rtuUnwrap
  | 0x5 => .instr .tcpWrap
  | 0x6 => .instr .tcpUnwrap
  | 0x7 => .instr .softReset
  | _   => .illegal .reservedOp

/-- R94: the reserved bits are looked at first, then OP. -/
def decode (w : Word) : Decoded :=
  if w.extractLsb' 4 28 ≠ 0 then .illegal .reservedBitSet
  else decodeOp (w.extractLsb' 0 4).toNat

/-- The OP field of each command (R92). -/
def encodeOp (i : Instr) : BitVec 4 :=
  match i with
  | .nop       => 0x0
  | .crcInit   => 0x1
  | .crcUpdate => 0x2
  | .rtuWrap   => 0x3
  | .rtuUnwrap => 0x4
  | .tcpWrap   => 0x5
  | .tcpUnwrap => 0x6
  | .softReset => 0x7

/-- The command word of an instruction: RSVD = 0 above OP (R90, R92). -/
def encode (i : Instr) : Word := (0 : BitVec 28) ++ encodeOp i

/-- The command word given by the opcode table's numbering: bits at or above `nbits` are 0 (every row has 32). -/
def tableWord (nbits w : Nat) : Word := BitVec.ofNat 32 (w % 2 ^ nbits)

/-- What the decoder reads from a row's bits. A command word is the data of one bus write (R90), so there are no
bytes to lay out. -/
def decodeTableWord (nbits w : Nat) : Option Instr :=
  match decode (tableWord nbits w) with
  | .instr i => some i
  | .illegal _ => none

end Sys2Proof
end

