-- ==== Sys2Proof/Machine/State.lean ====
section
/-! DEFINITION. The machine's state as plain data: the registers and buffers of spec/10_state.md R39, and the model's
own fields (configuration, inputs, the bus response, the draw counter). -/

namespace Sys2Proof.Machine

/-- A byte buffer: (index, byte) pairs with indices strictly rising. An unlisted index is ⊥, an unspecified byte
(spec/10_state.md R37, R38; log 9). -/
abbrev Memory := List Host.Cell

/-- The result codes a completion can post (spec/30_encoding.md R95). Codes 8 to 15 are reserved and never produced. -/
inductive ErrCode where
  | ok
  | frameTooShort
  | unitIdMismatch
  | crcMismatch
  | invalidProtocolId
  | mbapLengthZero
  | bufferOverflow
  | illegalCommand
  deriving DecidableEq, Repr

/-- What a host access does: a read, or a write of a word (spec/20_memory.md R62, R63). -/
inductive AccessOp where
  | read
  | write (v : Word)
  deriving DecidableEq, Repr

/-- One access the block receives on its bus: a byte offset into the window, a size in bytes, and what it does
(spec/20_memory.md R60, R61; log 14). -/
structure Access where
  offset : Offset
  size : Nat
  op : AccessOp
  deriving DecidableEq, Repr

/-- What the outside does in one slot (spec/43_control.md R182; log 2). -/
inductive Input where
  /-- the block receives a host access, before the engine if the engine could move too -/
  | access (a : Access)
  /-- no access arrives: the engine moves if BUSY = 1 -/
  | quiet
  /-- the platform applies hardware reset (spec/70_reset_and_hazards.md R230) -/
  | hardReset
  deriving DecidableEq, Repr

/-- The block's answer to an access (spec/20_memory.md R61, R62; log 5). -/
inductive Response where
  /-- the value of an accepted read -/
  | data (v : Word)
  /-- an accepted write, whatever its effect -/
  | ack
  /-- the access was not an aligned 32-bit word -/
  | busError
  deriving DecidableEq, Repr

/-- The state of the block (R39), with the model's own fields after it. -/
structure State where
  /-- STATUS.BUSY: a latched command has not completed (R25) -/
  busy : Bool
  /-- STATUS.DONE: a command has completed and is not acknowledged (R25) -/
  done : Bool
  /-- STATUS.ERRCODE: the result of the last completed command (R25, R95) -/
  errCode : ErrCode
  /-- STATUS.WERR: a host write was dropped (R25) -/
  werr : Bool
  /-- PENDING: the latched command word (R39) -/
  pending : Word
  /-- INT_EN: DONE_IE is bit 0, WERR_IE is bit 1 (R28) -/
  intEn : BitVec 2
  /-- DEVICE_ID (R29) -/
  deviceId : Byte
  /-- IN_LEN (R30) -/
  inLen : Half
  /-- OUT_LEN (R31) -/
  outLen : Half
  /-- CRC_ACC (R32) -/
  crcAcc : Half
  /-- CALC_CRC (R35) -/
  calcCrc : Half
  /-- TXID (R33) -/
  txid : Half
  /-- RX_TXID (R34) -/
  rxTxid : Half
  /-- ERR_INFO0: the expected value or limit (R36) -/
  errInfo0 : Word
  /-- ERR_INFO1: the found value (R36) -/
  errInfo1 : Word
  /-- IN_BUF (R37) -/
  inBuf : Memory
  /-- OUT_BUF (R38) -/
  outBuf : Memory
  /-- the implementation's parameters; no step changes them (log 1) -/
  cfg : Config
  /-- what the outside will do, oldest first (log 2) -/
  inputs : List Input
  /-- the answer to the last access received (log 5) -/
  response : Option Response
  /-- the number of this step, read by the free values (log 3) -/
  draw : Nat
  deriving DecidableEq, Repr

/-- No step of the block faults: an error of a command is a value in STATUS.ERRCODE, the block has no trap
(spec/60_exceptions.md R204-R206), and a bus error is a response that changes no state (spec/20_memory.md R61). -/
inductive Fault where
  deriving DecidableEq, Repr

/-- Why a command would be refused. -/
inductive Refusal where
  /-- raised by an arm of exec for a command with no meaning yet; no arm does. Safe: the machine stops. -/
  | notModelled (mnemonic : String)
  deriving DecidableEq, Repr

/-- The state right after hardware reset of a block built with configuration `c` (spec/10_state.md R50). -/
def State.resetWith (c : Config) : State where
  busy := false
  done := false
  errCode := .ok
  werr := false
  pending := 0
  intEn := 0
  deviceId := 0x00
  inLen := 0
  outLen := 0
  crcAcc := 0xFFFF
  calcCrc := 0x0000
  txid := 0x0000
  rxTxid := 0x0000
  errInfo0 := 0
  errInfo1 := 0
  inBuf := []
  outBuf := []
  cfg := c
  inputs := []
  response := none
  draw := 0

/-- The state right after reset, with BUF_SIZE at its default (R50, R7). -/
def State.reset : State := State.resetWith Config.default

end Sys2Proof.Machine
end

