-- ==== Sys2Proof/Machine/Ops.lean ====
section
/-! DEFINITION. The named operations over the buffers and registers: buffer reads and writes, latching a command,
the two completion primitives (spec/43_control.md R180, R183), hardware reset. The block has no trap, so completion
with an error code stands where a processor would take an exception (spec/60_exceptions.md R204). -/

namespace Sys2Proof.Machine

/-- The canonical form: indices strictly rising. -/
abbrev Memory.wf (m : Memory) : Prop := (m.map Prod.fst).Pairwise (· < ·)

/-- The byte at index `i`, or none where it is ⊥. -/
def Memory.read : Memory → Nat → Option Byte
  | [], _ => none
  | (k, b) :: m, i => if i = k then some b else Memory.read m i

/-- Set the byte at index `i`, keeping the canonical form. -/
def Memory.write : Memory → Nat → Byte → Memory
  | [], i, b => [(i, b)]
  | (k, c) :: m, i, b =>
    if i < k then (i, b) :: (k, c) :: m
    else if i = k then (i, b) :: m
    else (k, c) :: Memory.write m i b

/-- The buffer that holds `bytes` from index `i` on and is ⊥ everywhere else. -/
def Memory.ofBytes : Nat → List Byte → Memory
  | _, [] => []
  | i, b :: bs => (i, b) :: Memory.ofBytes (i + 1) bs

/-- Every index of the buffer lies below `n`. -/
abbrev Memory.below (m : Memory) (n : Nat) : Prop := ∀ c ∈ m, c.1 < n

/-- R180: a CMD write while BUSY = 0 latches the word and starts the command. -/
def State.latch (s : State) (w : Word) : State :=
  { s with pending := w, busy := true, done := false }

/-- R183 `complete`: post the result and end the command. -/
def State.complete (s : State) (code : ErrCode) (info0 info1 : Word) : State :=
  { s with errCode := code, errInfo0 := info0, errInfo1 := info1, busy := false, done := true }

/-- Put a result at the start of OUT_BUF, make the rest ⊥, and set OUT_LEN (spec/10_state.md R31, R38). -/
def State.putOut (s : State) (bytes : List Byte) : State :=
  { s with outBuf := Memory.ofBytes 0 bytes, outLen := BitVec.ofNat 16 bytes.length }

/-- R183 `fail_out`: a framing command fails, with no output. -/
def State.failOut (s : State) (code : ErrCode) (info0 info1 : Word) : State :=
  { s with outLen := 0, outBuf := [] }.complete code info0 info1

/-- spec/70_reset_and_hazards.md R230: every register and buffer in its reset state, a command in flight abandoned.
The configuration, the inputs still to come and the draw counter are not the block's state and stay (log 8). -/
def State.hardReset (s : State) : State :=
  { State.resetWith s.cfg with inputs := s.inputs, draw := s.draw }

/-- Each step has its own number, so that two reads of one unspecified byte may differ (U1; log 3). -/
def State.tick (s : State) : State := { s with draw := s.draw + 1 }

/-- Apply `f` to the next state of an outcome. -/
def mapNext (f : State → State) (o : Host.Outcome State Fault Refusal) : Host.Outcome State Fault Refusal :=
  match o with
  | .next s => .next (f s)
  | .fault r => .fault r
  | .refused r => .refused r

end Sys2Proof.Machine
end

