-- ==== Sys2Proof/Machine/Operands.lean ====
section
/-! DEFINITION. What the commands and the host read: buffer bytes with their free values, byte order, widening. -/

namespace Sys2Proof.Machine

/-- `zext_32` (spec/00_scope.md R9). -/
def zext32 {n : Nat} (v : BitVec n) : Word := v.setWidth 32

/-- A length or limit as an ERR_INFO value, zero-extended to 32 bits (spec/30_encoding.md R96). -/
def infoOf (n : Nat) : Word := BitVec.ofNat 32 n

/-- v[15:8]. -/
def hiByte (v : Half) : Byte := v.extractLsb' 8 8

/-- v[7:0]. -/
def loByte (v : Half) : Byte := v.extractLsb' 0 8

/-- `(zext_16(hi) << 8) or zext_16(lo)` (spec/40_crc.md R122, spec/42_tcp_mbap.md R164). -/
def halfOf (hi lo : Byte) : Half := (hi.setWidth 16 <<< 8) ||| lo.setWidth 16

/-- IN[i]: the byte, or a free value where it is ⊥, the same one throughout a step (spec/43_control.md R189, U3; log 4). -/
def State.inByte (s : State) (i : Nat) : Byte := (s.inBuf.read i).getD (Config.freeInByte s.draw i)

/-- IN[i..j) (spec/00_scope.md R9). -/
def State.inSlice (s : State) (i j : Nat) : List Byte := (List.range' i (j - i)).map s.inByte

/-- What the host reads of OUT[i]: the byte, or a free value where it is ⊥ (U1). No command reads OUT
(spec/70_reset_and_hazards.md R242). -/
def State.outByte (s : State) (i : Nat) : Byte := (s.outBuf.read i).getD (Config.freeOutByte s.draw i)

end Sys2Proof.Machine
end

