-- ==== Sys2Proof/Machine/Flags.lean ====
section
/-! DEFINITION. The STATUS word, its write-one-to-clear bits and the interrupt output (spec/10_state.md R25-R28,
spec/60_exceptions.md R210). -/

namespace Sys2Proof.Machine

/-- The ERRCODE number of each result (spec/30_encoding.md R95). -/
def ErrCode.number (e : ErrCode) : BitVec 4 :=
  match e with
  | .ok                => 0
  | .frameTooShort     => 1
  | .unitIdMismatch    => 2
  | .crcMismatch       => 3
  | .invalidProtocolId => 4
  | .mbapLengthZero    => 5
  | .bufferOverflow    => 6
  | .illegalCommand    => 7

/-- STATUS.ERR is computed: 1 exactly when ERRCODE ≠ 0 (R26). -/
def State.err (s : State) : Bool := s.errCode.number != 0

/-- The STATUS word: BUSY [0], DONE [1], ERR [2], 0 [3], ERRCODE [7:4], WERR [8], 0 above (R25). -/
def State.statusWord (s : State) : Word :=
  (0 : BitVec 23) ++ BitVec.ofBool s.werr ++ s.errCode.number ++ (0 : BitVec 1) ++
    BitVec.ofBool s.err ++ BitVec.ofBool s.done ++ BitVec.ofBool s.busy

/-- R27: a 1 in bit 1 clears DONE, a 1 in bit 8 clears WERR; every other bit is ignored. -/
def State.writeStatus (s : State) (v : Word) : State :=
  { s with done := s.done && !v.getLsbD 1, werr := s.werr && !v.getLsbD 8 }

/-- INT_EN.DONE_IE (R28). -/
def State.doneIE (s : State) : Bool := s.intEn.getLsbD 0

/-- INT_EN.WERR_IE (R28). -/
def State.werrIE (s : State) : Bool := s.intEn.getLsbD 1

/-- R210: the level of the IRQ output. -/
def State.irq (s : State) : Bool := (s.done && s.doneIE) || (s.werr && s.werrIE)

end Sys2Proof.Machine
end

