-- ==== Sys2Proof/Machine/Bus.lean ====
section
/-! DEFINITION. The host bus: the register map, reads, writes, bus errors (spec/10_state.md R21-R24,
spec/20_memory.md R60-R65). -/

namespace Sys2Proof.Machine

/-- The registers of the map (R21). -/
inductive Reg where
  | id | param | cmd | status | intEn | deviceId | inLen | outLen | crcAcc | calcCrc | txid | rxTxid
  | errInfo0 | errInfo1
  deriving DecidableEq, Repr

/-- A register's byte offset (R21). -/
def Reg.offset (r : Reg) : Offset :=
  match r with
  | .id       => 0x0000
  | .param    => 0x0004
  | .cmd      => 0x0008
  | .status   => 0x000C
  | .intEn    => 0x0010
  | .deviceId => 0x0014
  | .inLen    => 0x0018
  | .outLen   => 0x001C
  | .crcAcc   => 0x0020
  | .calcCrc  => 0x0024
  | .txid     => 0x0028
  | .rxTxid   => 0x002C
  | .errInfo0 => 0x0030
  | .errInfo1 => 0x0034

/-- The register at an offset below 0x1000, if there is one (R21). -/
def regAt (off : Nat) : Option Reg :=
  match off with
  | 0x0000 => some .id
  | 0x0004 => some .param
  | 0x0008 => some .cmd
  | 0x000C => some .status
  | 0x0010 => some .intEn
  | 0x0014 => some .deviceId
  | 0x0018 => some .inLen
  | 0x001C => some .outLen
  | 0x0020 => some .crcAcc
  | 0x0024 => some .calcCrc
  | 0x0028 => some .txid
  | 0x002C => some .rxTxid
  | 0x0030 => some .errInfo0
  | 0x0034 => some .errInfo1
  | _ => none

/-- What stands at an aligned offset of the window (R21, R70). -/
inductive Loc where
  | reg (r : Reg)
  | inWord (i : Nat)
  | outWord (i : Nat)
  | reserved
  deriving DecidableEq, Repr

/-- The map of the window (R21): buffer words at or beyond BUF_SIZE are reserved. -/
def locate (bufSize : Nat) (offset : Offset) : Loc :=
  let off := offset.toNat
  if off < 0x1000 then
    match regAt off with
    | some r => .reg r
    | none => .reserved
  else if off < 0x2000 then
    if (off - 0x1000) / 4 < bufSize then .inWord ((off - 0x1000) / 4) else .reserved
  else if off < 0x3000 then
    if (off - 0x2000) / 4 < bufSize then .outWord ((off - 0x2000) / 4) else .reserved
  else .reserved

/-- R61: only naturally aligned 32-bit accesses are accepted. -/
def Access.accepted (a : Access) : Bool := a.size == 4 && a.offset.toNat % 4 == 0

/-- The value a register reads as, reserved bits 0, CMD as 0 (R21-R36). -/
def State.readReg (s : State) (r : Reg) : Word :=
  match r with
  | .id       => 0x4D420001
  | .param    => infoOf s.cfg.bufSize
  | .cmd      => 0
  | .status   => s.statusWord
  | .intEn    => zext32 s.intEn
  | .deviceId => zext32 s.deviceId
  | .inLen    => zext32 s.inLen
  | .outLen   => zext32 s.outLen
  | .crcAcc   => zext32 s.crcAcc
  | .calcCrc  => zext32 s.calcCrc
  | .txid     => zext32 s.txid
  | .rxTxid   => zext32 s.rxTxid
  | .errInfo0 => s.errInfo0
  | .errInfo1 => s.errInfo1

/-- R62: what an accepted read returns while BUSY = 0. -/
def State.readIdle (s : State) (l : Loc) : Word :=
  match l with
  | .reg r => s.readReg r
  | .inWord i => zext32 (s.inByte i)
  | .outWord i => zext32 (s.outByte i)
  | .reserved => 0

/-- R65: the locations a read sees while BUSY = 1. -/
def Loc.readableBusy (l : Loc) : Bool :=
  match l with
  | .reg .id => true
  | .reg .param => true
  | .reg .status => true
  | .reg .intEn => true
  | _ => false

/-- R62 and R65: what an accepted read returns. -/
def State.hostRead (s : State) (offset : Offset) : Word :=
  let l := locate s.cfg.bufSize offset
  if s.busy && !l.readableBusy then Config.freeWord s.draw else s.readIdle l

/-- R63: what an accepted write does to a register while BUSY = 0; a read-only one ignores it. -/
def State.writeReg (s : State) (r : Reg) (v : Word) : State :=
  match r with
  | .cmd      => s.latch v
  | .status   => s.writeStatus v
  | .intEn    => { s with intEn := v.extractLsb' 0 2 }
  | .deviceId => { s with deviceId := v.extractLsb' 0 8 }
  | .inLen    => { s with inLen := v.extractLsb' 0 16 }
  | .crcAcc   => { s with crcAcc := v.extractLsb' 0 16 }
  | .id | .param | .outLen | .calcCrc | .txid | .rxTxid | .errInfo0 | .errInfo1 => s

/-- R63: what an accepted write does while BUSY = 0. -/
def State.writeIdle (s : State) (l : Loc) (v : Word) : State :=
  match l with
  | .reg r => s.writeReg r v
  | .inWord i => { s with inBuf := s.inBuf.write i (v.extractLsb' 0 8) }
  | .outWord _ => s
  | .reserved => s

/-- R63 and R64: an accepted write; while BUSY = 1 it is dropped and sets WERR. -/
def State.hostWrite (s : State) (offset : Offset) (v : Word) : State :=
  if s.busy then { s with werr := true } else s.writeIdle (locate s.cfg.bufSize offset) v

/-- An access that the bus accepts: a read answers its value and changes nothing (R62, R69), a write is acknowledged
(log 5). -/
def State.acceptedAccess (s : State) (offset : Offset) (op : AccessOp) : State :=
  match op with
  | .read => { s with response := some (.data (s.hostRead offset)) }
  | .write v => { s.hostWrite offset v with response := some .ack }

/-- One access received on the bus: a bus error changes no state but the model's record of the response (R61). -/
def State.busAccess (s : State) (a : Access) : State :=
  if a.accepted then s.acceptedAccess a.offset a.op
  else { s with response := some .busError }

end Sys2Proof.Machine
end

