-- ==== Sys2Proof/Machine/Control.lean ====
section
/-! DEFINITION. Command control: NOP, SOFT_RESET, the illegal command word (spec/43_control.md R185-R187). -/

namespace Sys2Proof.Machine

/-- NOP (R185): complete with no effect. -/
def execNop (s : State) : Host.Outcome State Fault Refusal :=
  .next (s.complete .ok 0 0)

/-- SOFT_RESET (R186): every register but INT_EN to its reset value, the buffers to ⊥, then complete. PENDING is one of
them (spec/10_state.md R51, spec/70_reset_and_hazards.md R231; log 7). -/
def execSoftReset (s : State) : Host.Outcome State Fault Refusal :=
  .next ({ s with
      pending := 0
      deviceId := 0x00, inLen := 0, outLen := 0
      crcAcc := 0xFFFF, calcCrc := 0, txid := 0, rxTxid := 0
      werr := false
      inBuf := [], outBuf := [] }.complete .ok 0 0)

/-- ILLEGAL (R187): the command word itself is what was found. -/
def execIllegal (s : State) : Host.Outcome State Fault Refusal :=
  .next (s.complete .illegalCommand 0 s.pending)

end Sys2Proof.Machine
end

