-- ==== Sys2Proof/Machine/Crc.lean ====
section
/-! DEFINITION. The CRC-16 function and the standalone accumulator's commands (spec/40_crc.md R120-R126). -/

namespace Sys2Proof.Machine

/-- One right shift with its conditional XOR: the condition is the bit shifted out (R120; log 15). -/
def crcShift (c : Half) : Half :=
  if c.getLsbD 0 then (c >>> 1) ^^^ 0xA001 else c >>> 1

/-- `k` shifts. -/
def crcShifts : Nat → Half → Half
  | 0, c => c
  | k + 1, c => crcShifts k (crcShift c)

/-- `crc_step` (R120): XOR the byte into the low end, then 8 shifts. -/
def crcStep (c : Half) (b : Byte) : Half := crcShifts 8 (c ^^^ b.setWidth 16)

/-- `crc16` (R121): the left fold of `crc_step`, no final XOR. -/
def crc16 : Half → List Byte → Half
  | c, [] => c
  | c, b :: bs => crc16 (crcStep c b) bs

/-- The CRC's initial value, the source's "init 0xFFFF" (R121). -/
def crcInitial : Half := 0xFFFF

/-- CRC_INIT (R125). -/
def execCrcInit (s : State) : Host.Outcome State Fault Refusal :=
  .next ({ s with crcAcc := crcInitial }.complete .ok 0 0)

/-- CRC_UPDATE (R126): fold IN[0..IN_LEN) into CRC_ACC. -/
def execCrcUpdate (s : State) : Host.Outcome State Fault Refusal :=
  let n := s.inLen.toNat
  if n > s.cfg.bufSize then .next (s.complete .bufferOverflow (infoOf s.cfg.bufSize) (infoOf n))
  else .next ({ s with crcAcc := crc16 s.crcAcc (s.inSlice 0 n) }.complete .ok 0 0)

end Sys2Proof.Machine
end

