-- ==== Sys2Proof/Machine/Rtu.lean ====
section
/-! DEFINITION. RTU framing: RTU_WRAP and RTU_UNWRAP (spec/41_rtu.md R141, R143, R144). -/

namespace Sys2Proof.Machine

/-- The RTU frame of a PDU: address, PDU, CRC low byte, CRC high byte (spec/30_encoding.md R97). -/
def rtuFrame (d : Byte) (pdu : List Byte) : List Byte :=
  d :: pdu ++ [loByte (crc16 crcInitial (d :: pdu)), hiByte (crc16 crcInitial (d :: pdu))]

/-- RTU_WRAP (R141). -/
def execRtuWrap (s : State) : Host.Outcome State Fault Refusal :=
  let n := s.inLen.toNat
  if n > s.cfg.bufSize then .next (s.failOut .bufferOverflow (infoOf s.cfg.bufSize) (infoOf n))
  else if n + 3 > s.cfg.bufSize then .next (s.failOut .bufferOverflow (infoOf s.cfg.bufSize) (infoOf (n + 3)))
  else
    let pdu := s.inSlice 0 n
    let crc := crc16 crcInitial (s.deviceId :: pdu)
    .next ({ s.putOut (rtuFrame s.deviceId pdu) with calcCrc := crc }.complete .ok 0 0)

/-- RTU_UNWRAP (R144), its checks in the order of R143. -/
def execRtuUnwrap (s : State) : Host.Outcome State Fault Refusal :=
  let n := s.inLen.toNat
  if n > s.cfg.bufSize then .next (s.failOut .bufferOverflow (infoOf s.cfg.bufSize) (infoOf n))
  else if n < 4 then .next (s.failOut .frameTooShort (infoOf 4) (infoOf n))
  else if s.inByte 0 ≠ s.deviceId then .next (s.failOut .unitIdMismatch (zext32 s.deviceId) (zext32 (s.inByte 0)))
  else
    let crc := crc16 crcInitial (s.inSlice 0 (n - 2))
    let rx := halfOf (s.inByte (n - 1)) (s.inByte (n - 2))
    if crc ≠ rx then .next ({ s with calcCrc := crc }.failOut .crcMismatch (zext32 crc) (zext32 rx))
    else .next ({ s.putOut (s.inSlice 1 (n - 2)) with calcCrc := crc }.complete .ok 0 0)

end Sys2Proof.Machine
end

