-- ==== Sys2Proof/Machine/Tcp.lean ====
section
/-! DEFINITION. TCP framing: TCP_WRAP and TCP_UNWRAP, with the MBAP header (spec/42_tcp_mbap.md R160-R165). -/

namespace Sys2Proof.Machine

/-- The TCP frame of a PDU: transaction id, protocol id 0, length, all high byte first, unit id, PDU
(spec/30_encoding.md R98). The length is formed in 16 bits (spec/92_eei_decisions.md D14). -/
def tcpFrame (t : Half) (d : Byte) (pdu : List Byte) : List Byte :=
  let len : Half := BitVec.ofNat 16 (pdu.length + 1)
  [hiByte t, loByte t, 0x00, 0x00, hiByte len, loByte len, d] ++ pdu

/-- TCP_WRAP (R161): the transaction id moves and the frame is built in one step. -/
def execTcpWrap (s : State) : Host.Outcome State Fault Refusal :=
  let n := s.inLen.toNat
  if n > s.cfg.bufSize then .next (s.failOut .bufferOverflow (infoOf s.cfg.bufSize) (infoOf n))
  else if n + 7 > s.cfg.bufSize then .next (s.failOut .bufferOverflow (infoOf s.cfg.bufSize) (infoOf (n + 7)))
  else
    let t := s.txid + 1
    .next ({ s.putOut (tcpFrame t s.deviceId (s.inSlice 0 n)) with txid := t }.complete .ok 0 0)

/-- TCP_UNWRAP (R164), its checks in the order of R163. The expected length 6 + L does not wrap (D14). -/
def execTcpUnwrap (s : State) : Host.Outcome State Fault Refusal :=
  let n := s.inLen.toNat
  let protocol := halfOf (s.inByte 2) (s.inByte 3)
  let declared := halfOf (s.inByte 4) (s.inByte 5)
  let expected := 6 + declared.toNat
  if n > s.cfg.bufSize then .next (s.failOut .bufferOverflow (infoOf s.cfg.bufSize) (infoOf n))
  else if n < 7 then .next (s.failOut .frameTooShort (infoOf 7) (infoOf n))
  else if protocol ≠ 0 then .next (s.failOut .invalidProtocolId 0 (zext32 protocol))
  else if s.inByte 6 ≠ s.deviceId then .next (s.failOut .unitIdMismatch (zext32 s.deviceId) (zext32 (s.inByte 6)))
  else if n < expected then .next (s.failOut .frameTooShort (infoOf expected) (infoOf n))
  else if declared = 0 then .next (s.failOut .mbapLengthZero (infoOf 1) (infoOf 0))
  else .next ({ s.putOut (s.inSlice 7 expected) with rxTxid := halfOf (s.inByte 0) (s.inByte 1) }.complete .ok 0 0)

end Sys2Proof.Machine
end

