-- ==== Sys2Proof/Machine/Dispatch.lean ====
section
/-! DEFINITION. One arm per command (spec/43_control.md R181). -/

namespace Sys2Proof.Machine

def exec (i : Instr) (s : State) : Host.Outcome State Fault Refusal :=
  match i with
  | .nop => Sys2Proof.Machine.execNop s
  | .crcInit => Sys2Proof.Machine.execCrcInit s
  | .crcUpdate => Sys2Proof.Machine.execCrcUpdate s
  | .rtuWrap => Sys2Proof.Machine.execRtuWrap s
  | .rtuUnwrap => Sys2Proof.Machine.execRtuUnwrap s
  | .tcpWrap => Sys2Proof.Machine.execTcpWrap s
  | .tcpUnwrap => Sys2Proof.Machine.execTcpUnwrap s
  | .softReset => Sys2Proof.Machine.execSoftReset s

end Sys2Proof.Machine
end

