-- ==== Sys2Proof/Machine/Engine.lean ====
section
/-! DEFINITION. The turns of the agents: the engine's, the host's, the platform's (spec/43_control.md R181, R182). -/

namespace Sys2Proof.Machine

/-- Perform what the latched word decodes to (R181). -/
def performPending (s : State) : Host.Outcome State Fault Refusal :=
  match decode s.pending with
  | .instr i => exec i s
  | .illegal _ => execIllegal s

/-- The engine's turn: it has a step exactly while BUSY = 1 (R181); an idle block keeps all its state
(spec/60_exceptions.md R216; log 6). -/
def engineTurn (s : State) : Host.Outcome State Fault Refusal :=
  if s.busy then performPending s else .next s

/-- What one slot of the inputs does (R182; log 2). -/
def inputTurn (i : Input) (s : State) : Host.Outcome State Fault Refusal :=
  match i with
  | .access a => .next (s.busAccess a)
  | .quiet => engineTurn s
  | .hardReset => .next s.hardReset

/-- One turn of the system: the oldest input is consumed; with no input left the engine moves. -/
def turn (s : State) : Host.Outcome State Fault Refusal :=
  match s.inputs with
  | [] => engineTurn s
  | i :: rest => inputTurn i { s with inputs := rest }

/-- The command word is latched as a CMD write would latch it (R180), and the next slot is the engine's, so that the
next step performs it (log 2). -/
def placeCommand (s : State) (w : Word) : State :=
  { s.latch w with inputs := .quiet :: s.inputs }

end Sys2Proof.Machine
end

