-- ==== Sys2Proof/Machine/Step.lean ====
section
/-! DEFINITION. One step of the machine: a turn of one agent, then the step number moves on. -/

namespace Sys2Proof.Machine

/-- One step (spec/43_control.md R182). -/
def step (s : State) : Host.Outcome State Fault Refusal := mapNext State.tick (turn s)

/-- `s` with a command word placed where the next step fetches its command. -/
def State.withFetchWord (s : State) (nbits w : Nat) : State := placeCommand s (tableWord nbits w)

end Sys2Proof.Machine
end

