-- ==== Sys2Proof/Machine/HostNotation.lean ====
section
/-! DEFINITION. The host notation in which programs that drive the block are written, as a layer over the block
(spec/30_encoding.md R100, R101; log 13). The host's variables and program counter are outside the block
(spec/10_state.md R20), so they stand here and not in State. -/

namespace Sys2Proof.Machine

/-- A host variable, by number. It holds a 32-bit word: R100 gives a variable no width, and a bus read fills it with 32
bits (the model's choice, log 13). -/
abbrev Var := Nat

/-- A label, by number. -/
abbrev Label := Nat

/-- `<target>`: a register name, or a buffer byte (R100). -/
inductive Target where
  | reg (r : Reg)
  | inByte (k : Nat)
  | outByte (k : Nat)
  deriving DecidableEq, Repr

/-- `<value>`: a number, or a host variable (COPYOUT writes the variables it read, R101). -/
inductive Value where
  | num (v : Word)
  | var (x : Var)
  deriving DecidableEq, Repr

/-- One statement of the host notation (R100), or one of the two pseudo-instructions of R101 whose number of statements
is a run-time value. -/
inductive Stmt where
  | wr (t : Target) (v : Value)
  | rd (x : Var) (t : Target)
  | set (x : Var) (v : Value)
  | sub (x : Var) (v : Value)
  | bnz (x : Var) (mask : Word) (l : Label)
  | bz (x : Var) (mask : Word) (l : Label)
  | label (l : Label)
  /-- `READOUT` (R101): the length goes to `n`, byte `i` to the variable `o + i` -/
  | readOut (n o : Var)
  /-- `COPYOUT` (R101), with `READOUT`'s variables -/
  | copyOut (n o : Var)
  deriving DecidableEq, Repr

/-- The offset a target stands for (R100). -/
def Target.offset (t : Target) : Offset :=
  match t with
  | .reg r => r.offset
  | .inByte k => BitVec.ofNat 14 (0x1000 + 4 * k)
  | .outByte k => BitVec.ofNat 14 (0x2000 + 4 * k)

/-- A buffer byte's number is below 1024, what its window holds (spec/10_state.md R21). -/
def Target.wellFormed (t : Target) : Bool :=
  match t with
  | .reg _ => true
  | .inByte k => k < 1024
  | .outByte k => k < 1024

/-- The targets a statement names are well formed, and `READOUT`'s length has a variable of its own, below those of the
bytes (R101 gives them different names). -/
def Stmt.wellFormed (st : Stmt) : Bool :=
  match st with
  | .wr t _ => t.wellFormed
  | .rd _ t => t.wellFormed
  | .readOut n o => n < o
  | .copyOut n o => n < o
  | .set _ _ | .sub _ _ | .bnz _ _ _ | .bz _ _ _ | .label _ => true

/-- A host thread: its program, the statement it stands at, and the variables it has set. `todo` holds the statements
that a `READOUT` or `COPYOUT` still has to run before the program goes on: how many they are is known only when OUT_LEN
has been read (R101; log 13). -/
structure HostThread where
  prog : List Stmt
  pc : Nat
  vars : List (Var × Word)
  todo : List Stmt
  deriving DecidableEq, Repr

/-- A host variable's value, if it has one. -/
def HostThread.lookup (h : HostThread) (x : Var) : Option Word := h.vars.lookup x

/-- A value's word, if its variable has one. -/
def HostThread.value (h : HostThread) (v : Value) : Option Word :=
  match v with
  | .num w => some w
  | .var x => h.lookup x

/-- The statement the thread runs next, if there is one and it is well formed. -/
def HostThread.current (h : HostThread) : Option Stmt :=
  let next :=
    match h.todo with
    | st :: _ => some st
    | [] => h.prog[h.pc]?
  next.filter Stmt.wellFormed

/-- Go to the next statement. -/
def HostThread.skip (h : HostThread) : HostThread :=
  match h.todo with
  | _ :: rest => { h with todo := rest }
  | [] => { h with pc := h.pc + 1 }

/-- Set a variable and go to the next statement. -/
def HostThread.assign (h : HostThread) (x : Var) (v : Word) : HostThread :=
  { h.skip with vars := (x, v) :: h.vars }

/-- Put statements before those the thread runs next. -/
def HostThread.push (h : HostThread) (more : List Stmt) : HostThread := { h with todo := more ++ h.todo }

/-- Go to a label's statement, if the program has it. Where one label stands twice, which the spec does not speak of, it
is the first (the model's choice, log 13). -/
def HostThread.goto (h : HostThread) (l : Label) : Option HostThread :=
  if Stmt.label l ∈ h.prog then some { h with pc := h.prog.idxOf (.label l), todo := [] } else none

/-- The one 32-bit bus write of `WR` (R100). -/
def writeAccess (t : Target) (v : Word) : Access := { offset := t.offset, size := 4, op := .write v }

/-- The one 32-bit bus read of `RD` (R100). -/
def readAccess (t : Target) : Access := { offset := t.offset, size := 4, op := .read }

/-- `RD`: the host variable takes the data of the response. What is to run next may depend on it. -/
def HostThread.receive (h : HostThread) (x : Var) (more : Word → List Stmt) (s : State) :
    Option (HostThread × State) :=
  match s.response with
  | some (.data v) => some ((h.assign x v).push (more v), s)
  | _ => none

/-- `RD o0, OUT[0]` to `RD o(n-1), OUT[n-1]` (R101). -/
def readBytes (o : Var) (n : Nat) : List Stmt := (List.range n).map fun i => .rd (o + i) (.outByte i)

/-- `WR IN[i], oi` for each i < n, then `WR IN_LEN, n` with `n` the variable `x` (R101). -/
def writeBytes (x o : Var) (n : Nat) : List Stmt :=
  (List.range n).map (fun i => .wr (.inByte i) (.var (o + i))) ++ [.wr (.reg .inLen) (.var x)]

/-- `BNZ` and `BZ`: branch on whether `(<var> and <mask>) ≠ 0` is `when` (R100). -/
def HostThread.branch (h : HostThread) (x : Var) (mask : Word) (l : Label) (when : Bool) : Option HostThread :=
  match h.lookup x with
  | some v => if (v &&& mask != 0) = when then h.goto l else some h.skip
  | none => none

/-- One statement of the host, with its access to the block if it has one: only WR and RD reach the block (R100).
`READOUT` and `COPYOUT` run as the statements of their expansion, as many as the OUT_LEN they read says (R101).
None where the program is at its end or at an ill-formed statement, or names a variable that is not set or a label it
does not have. R100 does not say what `SUB` does where the value exceeds the variable: it wraps modulo 2^32. These are
the model's choices (log 13). -/
def hostStmt (h : HostThread) (s : State) : Option (HostThread × State) :=
  match h.current with
  | none => none
  | some (.wr t v) => (h.value v).map fun w => (h.skip, s.busAccess (writeAccess t w))
  | some (.rd x t) => h.receive x (fun _ => []) (s.busAccess (readAccess t))
  | some (.set x v) => (h.value v).map fun w => (h.assign x w, s)
  | some (.sub x v) =>
    match h.lookup x, h.value v with
    | some a, some b => some (h.assign x (a - b), s)
    | _, _ => none
  | some (.bnz x m l) => (h.branch x m l true).map fun h' => (h', s)
  | some (.bz x m l) => (h.branch x m l false).map fun h' => (h', s)
  | some (.label _) => some (h.skip, s)
  | some (.readOut n o) =>
    h.receive n (fun v => readBytes o v.toNat) (s.busAccess (readAccess (.reg .outLen)))
  | some (.copyOut n o) =>
    h.receive n (fun v => readBytes o v.toNat ++ writeBytes n o v.toNat) (s.busAccess (readAccess (.reg .outLen)))

/-- The two agents of a host-and-block system (spec/43_control.md R182). -/
inductive Agent where
  | host
  | engine
  deriving DecidableEq, Repr

/-- One step of the system: one statement of the host, or the engine's turn; then the step number moves on. -/
def systemStep (a : Agent) (h : HostThread) (s : State) : Option (HostThread × State) :=
  match a with
  | .host => (hostStmt h s).map fun p => (p.1, p.2.tick)
  | .engine =>
    match engineTurn s with
    | .next t => some (h, t.tick)
    | .fault _ => none
    | .refused _ => none

/-- The system under an interleaving of the two agents, given as the list of their steps (R182). -/
def systemRun : List Agent → HostThread → State → Option (HostThread × State)
  | [], h, s => some (h, s)
  | a :: rest, h, s =>
    match systemStep a h s with
    | none => none
    | some (h', s') => systemRun rest h' s'

/-- `CMD <mnemonic>` (R101). -/
def cmdStmts (i : Instr) : List Stmt := [.wr (.reg .cmd) (.num (encode i))]

/-- `WAIT`, with its fresh label and variable: poll STATUS until BUSY = 0 (R101). -/
def waitStmts (l : Label) (t : Var) : List Stmt := [.label l, .rd t (.reg .status), .bnz t 0x1 l]

/-- `RUN <mnemonic>` (R101). -/
def runStmts (i : Instr) (l : Label) (t : Var) : List Stmt := cmdStmts i ++ waitStmts l t

/-- `ACK`: clear DONE and WERR (R101). -/
def ackStmts : List Stmt := [.wr (.reg .status) (.num 0x00000102)]

/-- `WR IN[k], b` for each byte, zero-extended, from index `k` on (log 13). -/
def loadFrom : Nat → List Byte → List Stmt
  | _, [] => []
  | k, b :: bs => .wr (.inByte k) (.num (zext32 b)) :: loadFrom (k + 1) bs

/-- `LOADIN b0, ..., b(n-1)` (R101). R101 gives the operands no width: they are bytes here, zero-extended to the 32-bit
value of the `WR` (the model's choice, log 13). -/
def loadInStmts (bytes : List Byte) : List Stmt :=
  loadFrom 0 bytes ++ [.wr (.reg .inLen) (.num (infoOf bytes.length))]

/-- `SETDEV d` (R101). R101 gives the operand no width: it is a byte here, zero-extended to the 32-bit value of the `WR`
(the model's choice, log 13). -/
def setDevStmts (d : Byte) : List Stmt := [.wr (.reg .deviceId) (.num (zext32 d))]

/-- `READOUT`: OUT_LEN into `n`, then OUT[0..n) into the variables from `o` on (R101). -/
def readOutStmts (n o : Var) : List Stmt := [.readOut n o]

/-- `COPYOUT`: READOUT, then the bytes into IN and the length into IN_LEN (R101). -/
def copyOutStmts (n o : Var) : List Stmt := [.copyOut n o]

end Sys2Proof.Machine
end

