-- ==== Sys2Proof/Safety.lean ====
section
/-! DEFINITION. What every step keeps: the invariant of the block. -/

namespace Sys2Proof.Machine

/-- IN_BUF is in canonical form and lists only indices it has (spec/10_state.md R37). -/
def State.InBufCanonical (s : State) : Prop := s.inBuf.wf ∧ s.inBuf.below s.cfg.bufSize

/-- OUT_LEN ≤ BUF_SIZE (spec/10_state.md R31), and OUT_BUF, in canonical form, is specified exactly on OUT[0..OUT_LEN)
(R38). -/
def State.OutBufFilled (s : State) : Prop :=
  s.outBuf.wf ∧ s.outLen.toNat ≤ s.cfg.bufSize ∧ ∀ i, (s.outBuf.read i).isSome = true ↔ i < s.outLen.toNat

/-- DONE is cleared when a command starts, and set when BUSY is cleared (spec/10_state.md R25). -/
def State.BusyExcludesDone (s : State) : Prop := ¬(s.busy = true ∧ s.done = true)

/-- ERR_INFO0 and ERR_INFO1 are what ERRCODE says they are: the expected value or limit, and a found value that really
violates it (spec/30_encoding.md R96). -/
def State.ErrInfoTruthful (s : State) : Prop :=
  match s.errCode with
  | .ok => s.errInfo0 = 0 ∧ s.errInfo1 = 0
  | .frameTooShort => s.errInfo1.toNat < s.errInfo0.toNat ∧ 4 ≤ s.errInfo0.toNat ∧ s.errInfo0.toNat ≤ 65541
  | .unitIdMismatch => s.errInfo0 ≠ s.errInfo1 ∧ s.errInfo0.toNat < 256 ∧ s.errInfo1.toNat < 256
  | .crcMismatch => s.errInfo0 ≠ s.errInfo1 ∧ s.errInfo0.toNat < 65536 ∧ s.errInfo1.toNat < 65536
  | .invalidProtocolId => s.errInfo0 = 0 ∧ s.errInfo1 ≠ 0 ∧ s.errInfo1.toNat < 65536
  | .mbapLengthZero => s.errInfo0 = 1 ∧ s.errInfo1 = 0
  | .bufferOverflow => s.errInfo0.toNat = s.cfg.bufSize ∧ s.cfg.bufSize < s.errInfo1.toNat
  | .illegalCommand => s.errInfo0 = 0 ∧ commandWordLegal s.errInfo1 = false

/-- The invariant: a legal configuration, and the four above. -/
def State.Inv (s : State) : Prop :=
  s.cfg.legal ∧ s.InBufCanonical ∧ s.OutBufFilled ∧ s.BusyExcludesDone ∧ s.ErrInfoTruthful

/-- What a completion leaves (spec/43_control.md R183). -/
def State.Posted (t : State) (code : ErrCode) (info0 info1 : Word) : Prop :=
  t.errCode = code ∧ t.errInfo0 = info0 ∧ t.errInfo1 = info1 ∧ t.busy = false ∧ t.done = true

/-- What a failed framing command leaves beside its report: no output (R183 `fail_out`). -/
def State.NoOutput (t : State) : Prop := t.outLen = 0 ∧ ∀ j, t.outBuf.read j = none

/-- The fields that a command reads, and the step number its free values come from (spec/30_encoding.md R91). -/
def State.SameOperands (s u : State) : Prop :=
  u.cfg = s.cfg ∧ u.inLen = s.inLen ∧ u.inBuf = s.inBuf ∧ u.deviceId = s.deviceId ∧ u.crcAcc = s.crcAcc ∧
    u.txid = s.txid ∧ u.draw = s.draw

/-- The block is the same, whatever the model's step number and its record of the bus response are. -/
def State.SameBlock (t s : State) : Prop := { t with response := none, draw := 0 } = { s with response := none, draw := 0 }

/-- The engine is the one that moves in the next step. -/
def State.EngineMoves (s : State) : Prop :=
  s.busy = true ∧ (s.inputs = [] ∨ ∃ rest, s.inputs = .quiet :: rest)

/-- The next step is an accepted 32-bit write of `v` at `off`, taken while BUSY = 0. -/
def State.HostWrites (s : State) (off : Offset) (v : Word) : Prop :=
  s.busy = false ∧ ∃ rest, s.inputs = .access { offset := off, size := 4, op := .write v } :: rest

/-- The next step is a hardware reset. -/
def State.HardResets (s : State) : Prop := ∃ rest, s.inputs = .hardReset :: rest

end Sys2Proof.Machine
end

