-- ==== Sys2Proof/Certificates/Slice0/Obligations.lean ====
section
/-! DEFINITION. The statements about the block for the provers: what the numbered rules of spec/ say it does. -/

open Sys2Proof Sys2Proof.Machine

/-! ### Reset and the invariant -/

/-- spec/10_state.md R50: every row of the reset table, IRQ among them, whatever BUF_SIZE is. -/
def Obligations.ResetHoldsTheTabledValues : Prop :=
  ∀ c : Config, let s := State.resetWith c
    s.busy = false ∧ s.done = false ∧ s.errCode = .ok ∧ s.err = false ∧ s.werr = false ∧ s.pending = 0 ∧
    s.intEn = 0 ∧ s.deviceId = 0x00 ∧ s.inLen = 0 ∧ s.outLen = 0 ∧ s.crcAcc = 0xFFFF ∧ s.calcCrc = 0x0000 ∧
    s.txid = 0x0000 ∧ s.rxTxid = 0x0000 ∧ s.errInfo0 = 0 ∧ s.errInfo1 = 0 ∧
    (∀ i, s.inBuf.read i = none ∧ s.outBuf.read i = none) ∧ s.irq = false

/-- The invariant of `StepKeepsTheInvariant` holds after reset, for every BUF_SIZE in 8..1024 (spec/00_scope.md R7).
That `State.reset` is the reset state with BUF_SIZE = 260 is the model's choice (log 1), and the 260 is the spec's
general knowledge (log 15). -/
def Obligations.ResetMeetsTheInvariant : Prop :=
  State.reset = State.resetWith { bufSize := 260 } ∧ State.reset.Inv ∧ ∀ c : Config, c.legal → (State.resetWith c).Inv

/-- Every step keeps the invariant: the buffers stay canonical and inside BUF_SIZE, OUT_BUF is specified exactly on
OUT[0..OUT_LEN) with OUT_LEN ≤ BUF_SIZE, BUSY and DONE are never both 1, and ERR_INFO0/1 tell the truth about
ERRCODE. -/
def Obligations.StepKeepsTheInvariant : Prop :=
  ∀ s t : State, s.Inv → step s = .next t → t.Inv

/-! ### Decoding -/

/-- spec/30_encoding.md R94 over all 2^32 words: a word decodes to a command exactly when it is that command's word,
and is illegal exactly when a bit of [31:4] is set or OP is 8 or more. -/
def Obligations.DecodeIsExactlyTheOpcodeMap : Prop :=
  (∀ (w : Word) (i : Instr), decode w = .instr i ↔ w = encode i) ∧
  (encode .nop = 0x0 ∧ encode .crcInit = 0x1 ∧ encode .crcUpdate = 0x2 ∧ encode .rtuWrap = 0x3 ∧
    encode .rtuUnwrap = 0x4 ∧ encode .tcpWrap = 0x5 ∧ encode .tcpUnwrap = 0x6 ∧ encode .softReset = 0x7) ∧
  (∀ w : Word, (∃ why, decode w = .illegal why) ↔
    w.extractLsb' 4 28 ≠ 0 ∨ 8 ≤ (w.extractLsb' 0 4).toNat)

/-- spec/30_encoding.md R92: the table's command words. -/
def Obligations.TabledWordsDecodeToTheirCommands : Prop :=
  decode 0x00000000 = .instr .nop ∧ decode 0x00000001 = .instr .crcInit ∧ decode 0x00000002 = .instr .crcUpdate ∧
  decode 0x00000003 = .instr .rtuWrap ∧ decode 0x00000004 = .instr .rtuUnwrap ∧ decode 0x00000005 = .instr .tcpWrap ∧
  decode 0x00000006 = .instr .tcpUnwrap ∧ decode 0x00000007 = .instr .softReset ∧
  (∀ k : Fin 8, decode (BitVec.ofNat 32 (8 + k.val)) = .illegal .reservedOp) ∧
  decode 0x00000013 = .illegal .reservedBitSet ∧ decode 0xFFFFFFFF = .illegal .reservedBitSet

/-! ### The step -/

/-- spec/43_control.md R181, R182: when the engine moves and the latched word decodes to a command, the step is exec of
that command; when a host access arrives, the step performs it. That the inputs list says which of the two moves, and
that an empty list or a quiet slot means the engine, is the model's (log 2), and so is the step number (log 3). -/
def Obligations.StepRunsTheDecodedCommand : Prop :=
  (∀ (s : State) (i : Instr), s.busy = true → decode s.pending = .instr i →
    (s.inputs = [] → step s = mapNext State.tick (exec i s)) ∧
    (∀ rest, s.inputs = .quiet :: rest → step s = mapNext State.tick (exec i { s with inputs := rest }))) ∧
  (∀ (s : State) (a : Access) (rest : List Input), s.inputs = .access a :: rest →
    step s = .next (State.tick (State.busAccess { s with inputs := rest } a)))

/-- A command word placed by `withFetchWord` is what the very next step runs. -/
def Obligations.PlacedCommandRunsNext : Prop :=
  ∀ (s : State) (i : Instr),
    step (s.withFetchWord 32 (encode i).toNat) = mapNext State.tick (exec i (s.latch (encode i)))

/-- spec/43_control.md R187: an illegal word completes with ILLEGAL_COMMAND, 0 and the word, and changes nothing
else. -/
def Obligations.IllegalWordPostsItself : Prop :=
  ∀ s : State, s.busy = true →
    (s.pending.extractLsb' 4 28 ≠ 0 ∨ 8 ≤ (s.pending.extractLsb' 0 4).toNat) →
    engineTurn s = .next { s with
      errCode := .illegalCommand, errInfo0 := 0, errInfo1 := s.pending, busy := false, done := true }

/-- While BUSY = 0 the engine has no step: its turn leaves the block as it is (the model's idle step, log 6). -/
def Obligations.IdleEngineChangesNothing : Prop :=
  ∀ s : State, s.busy = false →
    engineTurn s = .next s ∧
    (s.inputs = [] → step s = .next { s with draw := s.draw + 1 })

/-- Every latched command is performed, once, whatever accesses arrive first, and on the operands it was latched with:
after at most as many steps as there are inputs the engine stands at the unchanged command, and its step completes it.
The bound rests on the model's finite list of inputs (log 11). -/
def Obligations.LatchedCommandCompletes : Prop :=
  ∀ s : State, s.busy = true → Input.hardReset ∉ s.inputs →
    ∃ (k : Nat) (u t : State), k ≤ s.inputs.length ∧ core.run k s = .next u ∧
      u.busy = true ∧ u.pending = s.pending ∧ u.cfg = s.cfg ∧ u.inLen = s.inLen ∧ u.inBuf = s.inBuf ∧
      u.deviceId = s.deviceId ∧ u.crcAcc = s.crcAcc ∧ u.txid = s.txid ∧
      step u = mapNext State.tick (performPending { u with inputs := u.inputs.tail }) ∧
      step u = .next t ∧ t.busy = false ∧ t.done = true

/-! ### What each command does -/

/-- spec/43_control.md R185. -/
def Obligations.NopOnlyClearsTheReport : Prop :=
  ∀ s : State, exec .nop s = .next { s with
    errCode := .ok, errInfo0 := 0, errInfo1 := 0, busy := false, done := true }

/-- spec/40_crc.md R125. -/
def Obligations.CrcInitLoadsTheInitialValue : Prop :=
  ∀ s : State, exec .crcInit s = .next { s with
    crcAcc := 0xFFFF, errCode := .ok, errInfo0 := 0, errInfo1 := 0, busy := false, done := true }

/-- spec/40_crc.md R120, R121: one CRC step is the XOR and eight conditional shifts, and the CRC is its left fold. -/
def Obligations.CrcIsTheFoldOfEightShifts : Prop :=
  (∀ (c : Half) (b : Byte), crcStep c b =
    (fun x : Half => if x.getLsbD 0 then (x >>> 1) ^^^ 0xA001 else x >>> 1)^[8] (c ^^^ b.setWidth 16)) ∧
  (∀ (c : Half) (bytes : List Byte), crc16 c bytes = bytes.foldl crcStep c)

/-- spec/40_crc.md R126: the fold over IN[0..IN_LEN), and the overflow that leaves CRC_ACC alone. -/
def Obligations.CrcUpdateFoldsTheInput : Prop :=
  ∀ s : State,
    (s.inLen.toNat ≤ s.cfg.bufSize → exec .crcUpdate s = .next { s with
      crcAcc := ((List.range s.inLen.toNat).map s.inByte).foldl crcStep s.crcAcc
      errCode := .ok, errInfo0 := 0, errInfo1 := 0, busy := false, done := true }) ∧
    (s.cfg.bufSize < s.inLen.toNat → exec .crcUpdate s = .next { s with
      errCode := .bufferOverflow, errInfo0 := BitVec.ofNat 32 s.cfg.bufSize
      errInfo1 := BitVec.ofNat 32 s.inLen.toNat, busy := false, done := true })

/-- spec/41_rtu.md R141: the frame byte by byte, ⊥ after it, its length and its CRC; and the two errors, the input check
before the output check. Each clause gives the whole next state, so it is the frame too. -/
def Obligations.RtuWrapBuildsTheFrame : Prop :=
  ∀ s : State, s.cfg.legal →
    let n := s.inLen.toNat
    let crc := (s.deviceId :: (List.range n).map s.inByte).foldl crcStep 0xFFFF
    (n + 3 ≤ s.cfg.bufSize → ∃ out : Memory, exec .rtuWrap s = .next { s with
        outBuf := out, outLen := BitVec.ofNat 16 (n + 3), calcCrc := crc
        errCode := .ok, errInfo0 := 0, errInfo1 := 0, busy := false, done := true } ∧
      out.read 0 = some s.deviceId ∧
      (∀ j, j < n → out.read (1 + j) = some (s.inByte j)) ∧
      out.read (n + 1) = some (crc.extractLsb' 0 8) ∧
      out.read (n + 2) = some (crc.extractLsb' 8 8) ∧
      (∀ j, n + 3 ≤ j → out.read j = none)) ∧
    (s.cfg.bufSize < n → exec .rtuWrap s = .next { s with
      outLen := 0, outBuf := [], errCode := .bufferOverflow, errInfo0 := BitVec.ofNat 32 s.cfg.bufSize
      errInfo1 := BitVec.ofNat 32 n, busy := false, done := true }) ∧
    (n ≤ s.cfg.bufSize → s.cfg.bufSize < n + 3 → exec .rtuWrap s = .next { s with
      outLen := 0, outBuf := [], errCode := .bufferOverflow, errInfo0 := BitVec.ofNat 32 s.cfg.bufSize
      errInfo1 := BitVec.ofNat 32 (n + 3), busy := false, done := true })

/-- spec/41_rtu.md R143, R144: the four checks in order and what each reports, CALC_CRC written by the last only; then
the PDU byte by byte, ⊥ after it. Each clause gives the whole next state. -/
def Obligations.RtuUnwrapChecksAndExtracts : Prop :=
  ∀ s : State,
    let n := s.inLen.toNat
    let crc := ((List.range (n - 2)).map s.inByte).foldl crcStep 0xFFFF
    let rx := ((s.inByte (n - 1)).setWidth 16 <<< 8) ||| (s.inByte (n - 2)).setWidth 16
    let fails := fun (u : State) (code : ErrCode) (info0 info1 : Word) => exec .rtuUnwrap s = .next { u with
      outLen := 0, outBuf := [], errCode := code, errInfo0 := info0, errInfo1 := info1, busy := false, done := true }
    (s.cfg.bufSize < n → fails s .bufferOverflow (BitVec.ofNat 32 s.cfg.bufSize) (BitVec.ofNat 32 n)) ∧
    (n ≤ s.cfg.bufSize → n < 4 → fails s .frameTooShort 4 (BitVec.ofNat 32 n)) ∧
    (n ≤ s.cfg.bufSize → 4 ≤ n → s.inByte 0 ≠ s.deviceId →
      fails s .unitIdMismatch (s.deviceId.setWidth 32) ((s.inByte 0).setWidth 32)) ∧
    (n ≤ s.cfg.bufSize → 4 ≤ n → s.inByte 0 = s.deviceId → crc ≠ rx →
      fails { s with calcCrc := crc } .crcMismatch (crc.setWidth 32) (rx.setWidth 32)) ∧
    (n ≤ s.cfg.bufSize → 4 ≤ n → s.inByte 0 = s.deviceId → crc = rx →
      ∃ out : Memory, exec .rtuUnwrap s = .next { s with
          outBuf := out, outLen := BitVec.ofNat 16 (n - 3), calcCrc := crc
          errCode := .ok, errInfo0 := 0, errInfo1 := 0, busy := false, done := true } ∧
        (∀ j, j < n - 3 → out.read j = some (s.inByte (1 + j))) ∧
        (∀ j, n - 3 ≤ j → out.read j = none))

/-- spec/42_tcp_mbap.md R161: TXID + 1 modulo 2^16 and the frame with it, byte by byte, in one step; and the two errors,
which leave TXID. Each clause gives the whole next state. -/
def Obligations.TcpWrapAdvancesTxidAndBuildsTheFrame : Prop :=
  ∀ s : State, s.cfg.legal →
    let n := s.inLen.toNat
    let id : Half := BitVec.ofNat 16 (s.txid.toNat + 1)
    (n + 7 ≤ s.cfg.bufSize → ∃ out : Memory, exec .tcpWrap s = .next { s with
        outBuf := out, outLen := BitVec.ofNat 16 (n + 7), txid := id
        errCode := .ok, errInfo0 := 0, errInfo1 := 0, busy := false, done := true } ∧
      out.read 0 = some (id.extractLsb' 8 8) ∧ out.read 1 = some (id.extractLsb' 0 8) ∧
      out.read 2 = some 0x00 ∧ out.read 3 = some 0x00 ∧
      out.read 4 = some (BitVec.ofNat 8 ((n + 1) / 256)) ∧ out.read 5 = some (BitVec.ofNat 8 ((n + 1) % 256)) ∧
      out.read 6 = some s.deviceId ∧
      (∀ j, j < n → out.read (7 + j) = some (s.inByte j)) ∧
      (∀ j, n + 7 ≤ j → out.read j = none)) ∧
    (s.cfg.bufSize < n → exec .tcpWrap s = .next { s with
      outLen := 0, outBuf := [], errCode := .bufferOverflow, errInfo0 := BitVec.ofNat 32 s.cfg.bufSize
      errInfo1 := BitVec.ofNat 32 n, busy := false, done := true }) ∧
    (n ≤ s.cfg.bufSize → s.cfg.bufSize < n + 7 → exec .tcpWrap s = .next { s with
      outLen := 0, outBuf := [], errCode := .bufferOverflow, errInfo0 := BitVec.ofNat 32 s.cfg.bufSize
      errInfo1 := BitVec.ofNat 32 (n + 7), busy := false, done := true })

/-- spec/42_tcp_mbap.md R163, R164: the six checks in order and what each reports, the declared length without wrap;
then the PDU, frame[7..6 + L), ⊥ after it, RX_TXID from the frame. Each clause gives the whole next state, in which TXID
has not moved. -/
def Obligations.TcpUnwrapChecksAndExtracts : Prop :=
  ∀ s : State,
    let n := s.inLen.toNat
    let p := ((s.inByte 2).setWidth 16 <<< 8) ||| (s.inByte 3).setWidth 16
    let declared := (s.inByte 4).toNat * 256 + (s.inByte 5).toNat
    let fails := fun (code : ErrCode) (info0 info1 : Word) => exec .tcpUnwrap s = .next { s with
      outLen := 0, outBuf := [], errCode := code, errInfo0 := info0, errInfo1 := info1, busy := false, done := true }
    (s.cfg.bufSize < n → fails .bufferOverflow (BitVec.ofNat 32 s.cfg.bufSize) (BitVec.ofNat 32 n)) ∧
    (n ≤ s.cfg.bufSize → n < 7 → fails .frameTooShort 7 (BitVec.ofNat 32 n)) ∧
    (n ≤ s.cfg.bufSize → 7 ≤ n → p ≠ 0 → fails .invalidProtocolId 0 (p.setWidth 32)) ∧
    (n ≤ s.cfg.bufSize → 7 ≤ n → p = 0 → s.inByte 6 ≠ s.deviceId →
      fails .unitIdMismatch (s.deviceId.setWidth 32) ((s.inByte 6).setWidth 32)) ∧
    (n ≤ s.cfg.bufSize → 7 ≤ n → p = 0 → s.inByte 6 = s.deviceId → n < 6 + declared →
      fails .frameTooShort (BitVec.ofNat 32 (6 + declared)) (BitVec.ofNat 32 n)) ∧
    (n ≤ s.cfg.bufSize → 7 ≤ n → p = 0 → s.inByte 6 = s.deviceId → declared = 0 → fails .mbapLengthZero 1 0) ∧
    (n ≤ s.cfg.bufSize → 7 ≤ n → p = 0 → s.inByte 6 = s.deviceId → 6 + declared ≤ n → declared ≠ 0 →
      ∃ out : Memory, exec .tcpUnwrap s = .next { s with
          outBuf := out, outLen := BitVec.ofNat 16 (declared - 1)
          rxTxid := BitVec.ofNat 16 ((s.inByte 0).toNat * 256 + (s.inByte 1).toNat)
          errCode := .ok, errInfo0 := 0, errInfo1 := 0, busy := false, done := true } ∧
        (∀ j, j < declared - 1 → out.read j = some (s.inByte (7 + j))) ∧
        (∀ j, declared - 1 ≤ j → out.read j = none))

/-- spec/43_control.md R186: every register it lists to its reset value, INT_EN unchanged, every buffer byte ⊥, the
completion with OK, and IRQ with it if DONE_IE is set. PENDING is in `SoftResetReachesTheResetState`. -/
def Obligations.SoftResetRestoresAllButIntEn : Prop :=
  ∀ s : State, ∃ t, exec .softReset s = .next t ∧ t.Posted .ok 0 0 ∧ t.err = false ∧ t.werr = false ∧
    t.deviceId = 0x00 ∧ t.inLen = 0 ∧ t.outLen = 0 ∧ t.crcAcc = 0xFFFF ∧ t.calcCrc = 0 ∧ t.txid = 0 ∧
    t.rxTxid = 0 ∧ (∀ i, t.inBuf.read i = none ∧ t.outBuf.read i = none) ∧
    t.intEn = s.intEn ∧ t.irq = s.intEn.getLsbD 0

/-! ### Completion, errors, frames -/

/-- Every command completes, from every state, and posts one of the codes the table lists for it
(spec/30_encoding.md R95, "raised by"). -/
def Obligations.EveryCommandCompletesWithItsOwnCodes : Prop :=
  ∀ (i : Instr) (s : State), ∃ t, exec i s = .next t ∧ t.busy = false ∧ t.done = true ∧
    t.errCode ∈ (match i with
      | .nop | .crcInit | .softReset => [ErrCode.ok]
      | .crcUpdate | .rtuWrap | .tcpWrap => [ErrCode.ok, ErrCode.bufferOverflow]
      | .rtuUnwrap => [ErrCode.ok, ErrCode.bufferOverflow, ErrCode.frameTooShort, ErrCode.unitIdMismatch,
          ErrCode.crcMismatch]
      | .tcpUnwrap => [ErrCode.ok, ErrCode.bufferOverflow, ErrCode.frameTooShort, ErrCode.invalidProtocolId,
          ErrCode.unitIdMismatch, ErrCode.mbapLengthZero])

/-- No command changes INT_EN (spec/10_state.md R28) or any of the model's own fields, and none but SOFT_RESET changes
PENDING (spec/10_state.md R40, R51; for SOFT_RESET that is log 7's reading). -/
def Obligations.CommandsNeverWriteIntEnAndOnlySoftResetPending : Prop :=
  ∀ (i : Instr) (s t : State), exec i s = .next t →
    t.intEn = s.intEn ∧ (i ≠ .softReset → t.pending = s.pending) ∧ t.cfg = s.cfg ∧ t.inputs = s.inputs ∧ t.response = s.response ∧
    t.draw = s.draw

/-- The frame of the commands that are not framing: no buffer byte, and no register but CRC_ACC (by the two CRC
commands) and the report. -/
def Obligations.ControlAndCrcCommandsFrame : Prop :=
  ∀ (i : Instr) (s t : State), (i = .nop ∨ i = .crcInit ∨ i = .crcUpdate) → exec i s = .next t →
    t.werr = s.werr ∧ t.pending = s.pending ∧ t.intEn = s.intEn ∧ t.deviceId = s.deviceId ∧ t.inLen = s.inLen ∧
    t.outLen = s.outLen ∧ t.calcCrc = s.calcCrc ∧ t.txid = s.txid ∧ t.rxTxid = s.rxTxid ∧
    (i = .nop ∨ t.errCode ≠ .ok → t.crcAcc = s.crcAcc) ∧
    (∀ a, t.inBuf.read a = s.inBuf.read a) ∧ (∀ a, t.outBuf.read a = s.outBuf.read a)

/-- The frame of the framing commands: no IN byte, and of the registers only OUT_LEN, the report, CALC_CRC (by the RTU
commands), TXID (by a TCP_WRAP that succeeds) and RX_TXID (by a TCP_UNWRAP that succeeds). Every OUT byte at or beyond
OUT_LEN is ⊥. -/
def Obligations.FramingCommandsFrame : Prop :=
  ∀ (i : Instr) (s t : State), (i = .rtuWrap ∨ i = .rtuUnwrap ∨ i = .tcpWrap ∨ i = .tcpUnwrap) →
    exec i s = .next t →
    t.werr = s.werr ∧ t.pending = s.pending ∧ t.intEn = s.intEn ∧ t.deviceId = s.deviceId ∧ t.inLen = s.inLen ∧
    t.crcAcc = s.crcAcc ∧
    (i = .tcpWrap ∨ i = .tcpUnwrap ∨ t.errCode ≠ .ok ∧ t.errCode ≠ .crcMismatch → t.calcCrc = s.calcCrc) ∧
    (i ≠ .tcpWrap ∨ t.errCode ≠ .ok → t.txid = s.txid) ∧
    (i ≠ .tcpUnwrap ∨ t.errCode ≠ .ok → t.rxTxid = s.rxTxid) ∧
    (∀ a, t.inBuf.read a = s.inBuf.read a) ∧
    (s.cfg.legal → ∀ a, t.outLen.toNat ≤ a → t.outBuf.read a = none)

/-- spec/60_exceptions.md R201, the changes of a failed command: its report, no output for a framing command, CALC_CRC
for RTU_UNWRAP at its CRC check, and nothing else. -/
def Obligations.FailedCommandChangesOnlyItsReport : Prop :=
  ∀ s t : State, s.busy = true → engineTurn s = .next t → t.errCode ≠ .ok →
    t.busy = false ∧
    t.deviceId = s.deviceId ∧ t.inLen = s.inLen ∧ t.inBuf = s.inBuf ∧ t.txid = s.txid ∧ t.rxTxid = s.rxTxid ∧
    t.crcAcc = s.crcAcc ∧ t.intEn = s.intEn ∧ t.werr = s.werr ∧ t.pending = s.pending ∧
    (t.calcCrc ≠ s.calcCrc → decode s.pending = .instr .rtuUnwrap ∧ t.errCode = .crcMismatch) ∧
    (decode s.pending ∈ [.instr .rtuWrap, .instr .rtuUnwrap, .instr .tcpWrap, .instr .tcpUnwrap] → t.NoOutput) ∧
    (decode s.pending ∉ [.instr .rtuWrap, .instr .rtuUnwrap, .instr .tcpWrap, .instr .tcpUnwrap] →
      t.outLen = s.outLen ∧ t.outBuf = s.outBuf)

/-- spec/43_control.md R188: no command reads ERRCODE, ERR_INFO0/1, CALC_CRC, RX_TXID or OUT_BUF (nor any flag, INT_EN,
PENDING or the bus): from two states with the same operands a command gives the same report, the same CRC_ACC and TXID,
and in every other result register either the same value or no change in both. -/
def Obligations.NoCommandReadsAResult : Prop :=
  ∀ (i : Instr) (s u t v : State), s.SameOperands u → exec i s = .next t → exec i u = .next v →
    v.errCode = t.errCode ∧ v.errInfo0 = t.errInfo0 ∧ v.errInfo1 = t.errInfo1 ∧ v.busy = t.busy ∧ v.done = t.done ∧
    v.crcAcc = t.crcAcc ∧ v.txid = t.txid ∧ v.deviceId = t.deviceId ∧ v.inLen = t.inLen ∧ v.inBuf = t.inBuf ∧
    (v.calcCrc = t.calcCrc ∨ v.calcCrc = u.calcCrc ∧ t.calcCrc = s.calcCrc) ∧
    (v.rxTxid = t.rxTxid ∨ v.rxTxid = u.rxTxid ∧ t.rxTxid = s.rxTxid) ∧
    (v.outBuf = t.outBuf ∧ v.outLen = t.outLen ∨
      v.outBuf = u.outBuf ∧ v.outLen = u.outLen ∧ t.outBuf = s.outBuf ∧ t.outLen = s.outLen)

/-! ### Who writes what -/

/-- spec/10_state.md R33, spec/42_tcp_mbap.md R162: a step that changes TXID is a TCP_WRAP that succeeds, and then it
adds 1 modulo 2^16, or a SOFT_RESET or hardware reset, and then it clears it. -/
def Obligations.OnlyTcpWrapAdvancesTxid : Prop :=
  ∀ s t : State, step s = .next t → t.txid ≠ s.txid →
    (s.EngineMoves ∧ decode s.pending = .instr .tcpWrap ∧ t.errCode = .ok ∧ t.txid = s.txid + 1) ∨
    (t.txid = 0 ∧ (s.HardResets ∨ s.EngineMoves ∧ decode s.pending = .instr .softReset))

/-- spec/42_tcp_mbap.md R162: the k-th successful TCP_WRAP since TXID was 0 emits transaction id k modulo 2^16, high
byte first, whatever else happens in between that leaves TXID alone. `u j` is the state after the j-th. -/
def Obligations.KthTcpWrapEmitsK : Prop :=
  ∀ (u : Nat → State) (k : Nat), (u 0).txid = 0 →
    (∀ j, j < k → ∃ before : State, before.txid = (u j).txid ∧ exec .tcpWrap before = .next (u (j + 1)) ∧
      (u (j + 1)).errCode = .ok) →
    (u k).txid.toNat = k % 2 ^ 16 ∧
    (0 < k → (u k).outBuf.read 0 = some (BitVec.ofNat 8 (k / 256)) ∧
      (u k).outBuf.read 1 = some (BitVec.ofNat 8 k))

/-- spec/10_state.md R28: only a host write changes INT_EN, never a command, and not SOFT_RESET; hardware reset clears
it. -/
def Obligations.OnlyTheHostWritesIntEn : Prop :=
  ∀ s t : State, step s = .next t → t.intEn ≠ s.intEn →
    (∃ v, s.HostWrites 0x0010 v ∧ t.intEn = v.extractLsb' 0 2) ∨ (s.HardResets ∧ t.intEn = 0)

/-- spec/10_state.md R37: only the host writes an IN byte, with v[7:0], to its own word, while BUSY = 0; SOFT_RESET and
hardware reset make it ⊥. -/
def Obligations.OnlyTheHostWritesInBytes : Prop :=
  ∀ (s t : State) (i : Nat), step s = .next t → t.inBuf.read i ≠ s.inBuf.read i →
    (∃ v off, i < s.cfg.bufSize ∧ s.HostWrites off v ∧ off.toNat = 0x1000 + 4 * i ∧
      t.inBuf.read i = some (v.extractLsb' 0 8)) ∨
    (t.inBuf.read i = none ∧ (s.HardResets ∨ s.EngineMoves ∧ decode s.pending = .instr .softReset))

/-- spec/10_state.md R31, R38: only the four framing commands, SOFT_RESET and hardware reset change OUT_BUF or
OUT_LEN. -/
def Obligations.OnlyFramingCommandsWriteOut : Prop :=
  ∀ s t : State, step s = .next t → (t.outBuf ≠ s.outBuf ∨ t.outLen ≠ s.outLen) →
    s.HardResets ∨ s.EngineMoves ∧
      decode s.pending ∈ [.instr .rtuWrap, .instr .rtuUnwrap, .instr .tcpWrap, .instr .tcpUnwrap, .instr .softReset]

/-- The rest of spec/10_state.md R40: who changes PENDING, DEVICE_ID, IN_LEN, CRC_ACC, CALC_CRC and RX_TXID. That
SOFT_RESET changes PENDING is R51's (log 7). -/
def Obligations.OnlyNamedAgentsWriteSessionRegisters : Prop :=
  ∀ s t : State, step s = .next t →
    let cleared := s.HardResets ∨ s.EngineMoves ∧ decode s.pending = .instr .softReset
    (t.pending ≠ s.pending → (∃ v, s.HostWrites 0x0008 v ∧ t.pending = v) ∨ cleared) ∧
    (t.deviceId ≠ s.deviceId → (∃ v, s.HostWrites 0x0014 v ∧ t.deviceId = v.extractLsb' 0 8) ∨ cleared) ∧
    (t.inLen ≠ s.inLen → (∃ v, s.HostWrites 0x0018 v ∧ t.inLen = v.extractLsb' 0 16) ∨ cleared) ∧
    (t.crcAcc ≠ s.crcAcc → (∃ v, s.HostWrites 0x0020 v ∧ t.crcAcc = v.extractLsb' 0 16) ∨
      (s.EngineMoves ∧ decode s.pending ∈ [.instr .crcInit, .instr .crcUpdate]) ∨ cleared) ∧
    (t.calcCrc ≠ s.calcCrc → (s.EngineMoves ∧ decode s.pending ∈ [.instr .rtuWrap, .instr .rtuUnwrap]) ∨ cleared) ∧
    (t.rxTxid ≠ s.rxTxid → (s.EngineMoves ∧ decode s.pending = .instr .tcpUnwrap ∧ t.errCode = .ok) ∨ cleared)

/-! ### The CRC's laws and the round trips -/

/-- spec/40_crc.md R123 (a). -/
def Obligations.CrcOfPiecesChains : Prop :=
  ∀ (c : Half) (a b : List Byte), crc16 c (a ++ b) = crc16 (crc16 c a) b

/-- spec/40_crc.md R123 (b): the CRC of bytes with their own trailer, low byte first, is 0. -/
def Obligations.CrcOfFrameWithTrailerIsZero : Prop :=
  ∀ s : List Byte, let crc := crc16 0xFFFF s
    crc16 0xFFFF (s ++ [crc.extractLsb' 0 8, crc.extractLsb' 8 8]) = 0x0000

/-- spec/41_rtu.md R144 (corner cases), spec/90_conflicts.md C1: from a frame that RTU_UNWRAP accepts, flipping any one
bit gives UNIT_ID_MISMATCH in byte 0 and CRC_MISMATCH in any other, with no output. -/
def Obligations.RtuUnwrapDetectsEverySingleBitError : Prop :=
  ∀ (s t u : State) (k b : Nat), exec .rtuUnwrap s = .next t → t.errCode = .ok →
    u.cfg = s.cfg → u.inLen = s.inLen → u.deviceId = s.deviceId →
    k < s.inLen.toNat → b < 8 → u.inByte k = s.inByte k ^^^ BitVec.ofNat 8 (2 ^ b) →
    (∀ i, i < s.inLen.toNat → i ≠ k → u.inByte i = s.inByte i) →
    ∃ v, exec .rtuUnwrap u = .next v ∧ v.NoOutput ∧
      v.errCode = (if k = 0 then .unitIdMismatch else .crcMismatch)

/-- spec/41_rtu.md R145: RTU_WRAP, then OUT copied to IN with its length, then RTU_UNWRAP gives the PDU back; an empty
PDU fails with FRAME_TOO_SHORT. `u` is any state that the copy can leave. -/
def Obligations.RtuRoundTrip : Prop :=
  ∀ s t u : State, s.cfg.legal → s.inLen.toNat + 3 ≤ s.cfg.bufSize → exec .rtuWrap s = .next t →
    u.cfg = t.cfg → u.deviceId = t.deviceId → u.inLen = t.outLen →
    (∀ j, j < t.outLen.toNat → u.inBuf.read j = t.outBuf.read j) →
    ∃ v, exec .rtuUnwrap u = .next v ∧
      (1 ≤ s.inLen.toNat → v.errCode = .ok ∧ v.outLen = s.inLen ∧
        ∀ j, j < s.inLen.toNat → v.outBuf.read j = some (s.inByte j)) ∧
      (s.inLen.toNat = 0 → v.errCode = .frameTooShort)

/-- spec/42_tcp_mbap.md R166: the same for TCP, an empty PDU included, with RX_TXID = TXID. -/
def Obligations.TcpRoundTrip : Prop :=
  ∀ s t u : State, s.cfg.legal → s.inLen.toNat + 7 ≤ s.cfg.bufSize → exec .tcpWrap s = .next t →
    u.cfg = t.cfg → u.deviceId = t.deviceId → u.inLen = t.outLen → u.txid = t.txid →
    (∀ j, j < t.outLen.toNat → u.inBuf.read j = t.outBuf.read j) →
    ∃ v, exec .tcpUnwrap u = .next v ∧ v.errCode = .ok ∧ v.outLen = s.inLen ∧
      (∀ j, j < s.inLen.toNat → v.outBuf.read j = some (s.inByte j)) ∧ v.rxTxid = v.txid ∧ v.txid = t.txid

/-! ### Resets -/

/-- spec/70_reset_and_hazards.md R231, spec/10_state.md R51: but for INT_EN, which keeps its value, and DONE, which is 1, SOFT_RESET reaches the
state of hardware reset, PENDING included (log 7). The response is the model's own field (log 8). -/
def Obligations.SoftResetReachesTheResetState : Prop :=
  ∀ s t : State, exec .softReset s = .next t →
    { t with response := none } = { s.hardReset with intEn := s.intEn, done := true }

/-- spec/70_reset_and_hazards.md R230: hardware reset abandons a command in flight and leaves every register and byte in
its reset state, with IRQ 0. -/
def Obligations.HardResetAbandonsTheCommand : Prop :=
  ∀ (s : State) (rest : List Input), s.inputs = .hardReset :: rest →
    ∃ t, step s = .next t ∧ t.irq = false ∧
      t = { State.resetWith s.cfg with inputs := rest, draw := s.draw + 1 }

/-! ### The host bus -/

/-- spec/20_memory.md R61: an access that is not an aligned 32-bit word gets a bus error and changes no state, in
particular not WERR (the response is the model's own field). -/
def Obligations.OnlyAlignedWordAccessesAreAccepted : Prop :=
  ∀ (s : State) (a : Access),
    (a.size ≠ 4 ∨ a.offset.toNat % 4 ≠ 0) → s.busAccess a = { s with response := some .busError }

/-- spec/20_memory.md R62: what an accepted read returns while BUSY = 0, and that it changes no state: each register
with its reserved bits 0 and CMD as 0; a buffer word as its byte zero-extended (some byte where it is ⊥); a reserved
offset, a buffer word at or beyond BUF_SIZE among them, as 0. -/
def Obligations.IdleReadsReturnTheTabledValues : Prop :=
  ∀ s : State, s.busy = false → s.cfg.legal →
    let returns := fun (off : Offset) (v : Word) =>
      s.busAccess { offset := off, size := 4, op := .read } = { s with response := some (.data v) }
    (returns 0x0000 0x4D420001 ∧ returns 0x0004 (BitVec.ofNat 32 s.cfg.bufSize) ∧ returns 0x0008 0 ∧
      returns 0x000C s.statusWord ∧ returns 0x0010 (s.intEn.setWidth 32) ∧ returns 0x0014 (s.deviceId.setWidth 32) ∧
      returns 0x0018 (s.inLen.setWidth 32) ∧ returns 0x001C (s.outLen.setWidth 32) ∧
      returns 0x0020 (s.crcAcc.setWidth 32) ∧ returns 0x0024 (s.calcCrc.setWidth 32) ∧
      returns 0x0028 (s.txid.setWidth 32) ∧ returns 0x002C (s.rxTxid.setWidth 32) ∧
      returns 0x0030 s.errInfo0 ∧ returns 0x0034 s.errInfo1) ∧
    (∀ (off : Offset) (i : Nat), i < s.cfg.bufSize → off.toNat = 0x1000 + 4 * i →
      ∃ b : Byte, returns off (b.setWidth 32) ∧ (s.inBuf.read i = none ∨ s.inBuf.read i = some b)) ∧
    (∀ (off : Offset) (i : Nat), i < s.cfg.bufSize → off.toNat = 0x2000 + 4 * i →
      ∃ b : Byte, returns off (b.setWidth 32) ∧ (s.outBuf.read i = none ∨ s.outBuf.read i = some b)) ∧
    (∀ off : Offset, off.toNat % 4 = 0 →
      (0x0038 ≤ off.toNat ∧ off.toNat < 0x1000 ∨
        0x1000 + 4 * s.cfg.bufSize ≤ off.toNat ∧ off.toNat < 0x2000 ∨
        0x2000 + 4 * s.cfg.bufSize ≤ off.toNat) → returns off 0)

/-- spec/20_memory.md R63: what an accepted write does to the block while BUSY = 0, offset by offset (the response is
the model's own field and left out on both sides). -/
def Obligations.IdleWriteEffects : Prop :=
  ∀ (s : State) (off : Offset) (v : Word), s.busy = false → s.cfg.legal → off.toNat % 4 = 0 →
    let after := fun (t : State) =>
      { s.busAccess { offset := off, size := 4, op := .write v } with response := none } = { t with response := none }
    (off = 0x0008 → after { s with pending := v, busy := true, done := false }) ∧
    (off = 0x000C → after { s with done := s.done && !v.getLsbD 1, werr := s.werr && !v.getLsbD 8 }) ∧
    (off = 0x0010 → after { s with intEn := v.extractLsb' 0 2 }) ∧
    (off = 0x0014 → after { s with deviceId := v.extractLsb' 0 8 }) ∧
    (off = 0x0018 → after { s with inLen := v.extractLsb' 0 16 }) ∧
    (off = 0x0020 → after { s with crcAcc := v.extractLsb' 0 16 }) ∧
    (∀ i, i < s.cfg.bufSize → off.toNat = 0x1000 + 4 * i → ∃ m : Memory, after { s with inBuf := m } ∧
      m.read i = some (v.extractLsb' 0 8) ∧ ∀ j, j ≠ i → m.read j = s.inBuf.read j) ∧
    (off ∈ ([0x0000, 0x0004, 0x001C, 0x0024, 0x0028, 0x002C, 0x0030, 0x0034] : List Offset) ∨
      0x0038 ≤ off.toNat ∧ off.toNat < 0x1000 ∨
      0x1000 + 4 * s.cfg.bufSize ≤ off.toNat → after s)

/-- What an idle read returns after an idle write of `v` to the same word: the writable bits of `v`, the others 0. -/
def Obligations.ReadAfterWriteReturnsTheWritableBits : Prop :=
  ∀ (s : State) (off : Offset) (v : Word), s.busy = false →
    let t := (s.busAccess { offset := off, size := 4, op := .write v }).busAccess
      { offset := off, size := 4, op := .read }
    (off = 0x0010 → t.response = some (.data (v &&& 0x00000003))) ∧
    (off = 0x0014 → t.response = some (.data (v &&& 0x000000FF))) ∧
    (off = 0x0018 ∨ off = 0x0020 → t.response = some (.data (v &&& 0x0000FFFF))) ∧
    (∀ i, i < s.cfg.bufSize → i < 1024 → off = BitVec.ofNat 14 (0x1000 + 4 * i) →
      t.response = some (.data (v &&& 0x000000FF)))

/-- spec/20_memory.md R64: a write to an accepted offset while BUSY = 1 only sets WERR, whatever the offset; the latched
word and BUSY stay. -/
def Obligations.BusyWriteOnlySetsWerr : Prop :=
  ∀ (s : State) (off : Offset) (v : Word), s.busy = true → off.toNat % 4 = 0 →
    { s.busAccess { offset := off, size := 4, op := .write v } with response := none } =
      { s with werr := true, response := none }

/-- The model's reading of log 5: no aligned 32-bit access gets a bus error, and every accepted write is acknowledged, a
dropped or an ignored one too. -/
def Obligations.AcceptedWritesAreAcknowledged : Prop :=
  (∀ (s : State) (a : Access), a.size = 4 → a.offset.toNat % 4 = 0 → (s.busAccess a).response ≠ some .busError) ∧
  (∀ (s : State) (off : Offset) (v : Word), off.toNat % 4 = 0 →
    (s.busAccess { offset := off, size := 4, op := .write v }).response = some .ack)

/-- spec/20_memory.md R65: while BUSY = 1 a read of ID, PARAM, STATUS or INT_EN returns its value, any other read some
word, and no read changes state. -/
def Obligations.BusyReadsReturnOnlyFourRegisters : Prop :=
  ∀ (s : State) (off : Offset), s.busy = true → off.toNat % 4 = 0 →
    let returns := fun (v : Word) =>
      s.busAccess { offset := off, size := 4, op := .read } = { s with response := some (.data v) }
    (off = 0x0000 → returns 0x4D420001) ∧ (off = 0x0004 → returns (BitVec.ofNat 32 s.cfg.bufSize)) ∧
    (off = 0x000C → returns s.statusWord) ∧ (off = 0x0010 → returns (s.intEn.setWidth 32)) ∧
    (off ∉ ([0x0000, 0x0004, 0x000C, 0x0010] : List Offset) → returns (Config.freeWord s.draw))

/-- spec/20_memory.md R64, spec/43_control.md R182: an access received while BUSY = 1 does not disturb the command in
flight: performing it after the access is performing it and then keeping what the access left in WERR and on the bus
(SOFT_RESET clears WERR). -/
def Obligations.BusyAccessLeavesTheCommandAlone : Prop :=
  ∀ (s : State) (a : Access) (i : Instr), s.busy = true →
    exec i (s.busAccess a) = mapNext
      (fun t => { t with
        werr := if i = .softReset then false else (s.busAccess a).werr
        response := (s.busAccess a).response })
      (exec i s)

/-! ### Status and interrupt -/

/-- spec/10_state.md R25, R26: where each field of STATUS stands, ERR computed from ERRCODE, reserved bits 0; and
spec/30_encoding.md R95: the number of each result code in STATUS[7:4], so that ERR is 0 for OK alone. -/
def Obligations.StatusWordFields : Prop :=
  (∀ (s : State) (e : ErrCode),
    { s with errCode := e }.statusWord.extractLsb' 4 4 = (match e with
      | .ok => 0 | .frameTooShort => 1 | .unitIdMismatch => 2 | .crcMismatch => 3 | .invalidProtocolId => 4
      | .mbapLengthZero => 5 | .bufferOverflow => 6 | .illegalCommand => 7)) ∧
  (∀ s : State, s.err = true ↔ s.errCode ≠ .ok) ∧
  ∀ s : State,
    s.statusWord.getLsbD 0 = s.busy ∧ s.statusWord.getLsbD 1 = s.done ∧
    (s.statusWord.getLsbD 2 = true ↔ s.errCode ≠ .ok) ∧ (s.statusWord.getLsbD 2 = true ↔ s.errCode.number ≠ 0) ∧ s.statusWord.getLsbD 3 = false ∧
    s.statusWord.extractLsb' 4 4 = s.errCode.number ∧ s.statusWord.getLsbD 8 = s.werr ∧
    s.statusWord.extractLsb' 9 23 = 0

/-- spec/60_exceptions.md R210: the level of IRQ, and how it is cleared: by the W1C bits while BUSY = 0, by clearing
INT_EN, and for DONE by starting a command. -/
def Obligations.IrqLevelAndClearing : Prop :=
  (∀ s : State, s.irq = true ↔
    (s.done = true ∧ s.intEn.getLsbD 0 = true) ∨ (s.werr = true ∧ s.intEn.getLsbD 1 = true)) ∧
  (∀ s : State, s.busy = false →
    (s.busAccess { offset := 0x000C, size := 4, op := .write 0x00000102 }).irq = false ∧
    (s.busAccess { offset := 0x0010, size := 4, op := .write 0x00000000 }).irq = false ∧
    (∀ v, (s.busAccess { offset := 0x0008, size := 4, op := .write v }).irq = (s.werr && s.intEn.getLsbD 1)))

/-- spec/43_control.md R180: a CMD write starts a command and keeps the previous command's report; during BUSY it is
dropped and sets WERR, and neither replaces nor queues. -/
def Obligations.CmdWriteLatchesAndStarts : Prop :=
  ∀ (s : State) (v : Word),
    let t := s.busAccess { offset := 0x0008, size := 4, op := .write v }
    (s.busy = false →
      { t with response := none } = { s with pending := v, busy := true, done := false, response := none }) ∧
    (s.busy = true → { t with response := none } = { s with werr := true, response := none })

/-! ### The host notation -/

/-- spec/30_encoding.md R101, `WAIT`, with any number of engine turns before its label, before its read and before its
branch (spec/43_control.md R182). One round goes back to its label if BUSY was 1 when STATUS was read, and falls through
if it was 0. The host's three statements leave the block as it is but for the bus: it is unchanged if the engine did not
move or was idle, and otherwise has performed its command, once, on the block as it was. The step number, which the
free values are drawn by, and the response are the model's own (log 3, log 5). -/
def Obligations.WaitPollsUntilIdle : Prop :=
  ∀ (h : HostThread) (s : State) (l : Label) (x : Var) (pre post : List Stmt) (a b c : Nat),
    h.prog = pre ++ waitStmts l x ++ post → Stmt.label l ∉ pre → h.pc = pre.length → h.todo = [] →
    let turns := fun n : Nat => List.replicate n Agent.engine
    ∃ h' t, systemRun (turns a ++ .host :: (turns b ++ .host :: (turns c ++ [.host]))) h s = some (h', t) ∧
      h'.prog = h.prog ∧ h'.todo = [] ∧
      h'.pc = (if s.busy = true ∧ a = 0 ∧ b = 0 then pre.length else pre.length + 3) ∧
      (s.busy = false ∨ a + b + c = 0 → t.SameBlock s) ∧
      (s.busy = true → 0 < a + b + c →
        t.busy = false ∧ ∃ u v, u.SameBlock s ∧ performPending u = .next v ∧ t.SameBlock v)

/-- spec/30_encoding.md R101, `WAIT`: from its label, under every interleaving in which the engine moves and the host
then has four statements more, the poll ends, and BUSY = 0 when it does. `done` is the part of the interleaving up to
there. Four are enough for the rest of a round that has read BUSY = 1 and a whole round after it. -/
def Obligations.WaitEndsOnceTheEngineHasMoved : Prop :=
  ∀ (h : HostThread) (s : State) (l : Label) (x : Var) (pre post : List Stmt) (before rest : List Agent),
    h.prog = pre ++ waitStmts l x ++ post → Stmt.label l ∉ pre → h.pc = pre.length → h.todo = [] →
    4 ≤ rest.count .host →
    ∃ done, done <+: before ++ .engine :: rest ∧ ∃ h' t, systemRun done h s = some (h', t) ∧
      h'.prog = h.prog ∧ h'.todo = [] ∧ h'.pc = pre.length + 3 ∧ t.busy = false

/-- spec/30_encoding.md R101, `LOADIN`: run while BUSY = 0, it writes the bytes to IN[0..n) and n to IN_LEN, and leaves
every other IN byte and every other register. That its operands are bytes is the model's (log 13). -/
def Obligations.LoadInFillsTheInput : Prop :=
  ∀ (h : HostThread) (s : State) (bytes : List Byte) (pre post : List Stmt),
    s.cfg.legal → s.busy = false → bytes.length ≤ s.cfg.bufSize →
    h.prog = pre ++ loadInStmts bytes ++ post → h.pc = pre.length → h.todo = [] →
    ∃ m : Memory, systemRun (List.replicate (bytes.length + 1) .host) h s =
        some ({ h with pc := pre.length + bytes.length + 1 }, { s with
          inBuf := m, inLen := BitVec.ofNat 16 bytes.length, response := some .ack
          draw := s.draw + bytes.length + 1 }) ∧
      (∀ i, i < bytes.length → m.read i = bytes[i]?) ∧
      (∀ i, bytes.length ≤ i → m.read i = s.inBuf.read i)

/-- spec/30_encoding.md R101, `READOUT`: run while BUSY = 0, it reads OUT_LEN and then exactly OUT[0..OUT_LEN), each into
its own variable, and leaves the block as it is but for the bus. -/
def Obligations.ReadOutReadsTheOutput : Prop :=
  ∀ (h : HostThread) (s : State) (n o : Var) (pre post : List Stmt),
    s.cfg.legal → s.OutBufFilled → s.busy = false → n < o →
    h.prog = pre ++ readOutStmts n o ++ post → h.pc = pre.length → h.todo = [] →
    ∃ h' t, systemRun (List.replicate (s.outLen.toNat + 1) .host) h s = some (h', t) ∧
      h'.prog = h.prog ∧ h'.todo = [] ∧ h'.pc = pre.length + 1 ∧
      h'.lookup n = some (s.outLen.setWidth 32) ∧
      (∀ i, i < s.outLen.toNat → h'.lookup (o + i) = (s.outBuf.read i).map fun b => b.setWidth 32) ∧
      t.SameBlock s

/-- spec/30_encoding.md R101, `COPYOUT`: run while BUSY = 0, it leaves IN[0..OUT_LEN) = OUT[0..OUT_LEN) and
IN_LEN = OUT_LEN, every other IN byte as it was, and the rest of the block as it is but for the bus. -/
def Obligations.CopyOutMovesTheOutput : Prop :=
  ∀ (h : HostThread) (s : State) (n o : Var) (pre post : List Stmt),
    s.cfg.legal → s.OutBufFilled → s.busy = false → n < o →
    h.prog = pre ++ copyOutStmts n o ++ post → h.pc = pre.length → h.todo = [] →
    ∃ h' t m, systemRun (List.replicate (2 * s.outLen.toNat + 2) .host) h s = some (h', t) ∧
      h'.prog = h.prog ∧ h'.todo = [] ∧ h'.pc = pre.length + 1 ∧
      t.SameBlock { s with inBuf := m, inLen := s.outLen } ∧
      (∀ i, i < s.outLen.toNat → m.read i = s.outBuf.read i) ∧
      (∀ i, s.outLen.toNat ≤ i → m.read i = s.inBuf.read i)
end

