-- ==== Sys2Proof/Laws/State.lean ====
section
/-! SUPPORT. Every field after every shared update of the state, by definition. -/

namespace Sys2Proof.Machine

section
variable (s : State) (w : Word)

@[simp] theorem State.latch_busy : (s.latch w).busy = true := rfl
@[simp] theorem State.latch_done : (s.latch w).done = false := rfl
@[simp] theorem State.latch_errCode : (s.latch w).errCode = s.errCode := rfl
@[simp] theorem State.latch_werr : (s.latch w).werr = s.werr := rfl
@[simp] theorem State.latch_pending : (s.latch w).pending = w := rfl
@[simp] theorem State.latch_intEn : (s.latch w).intEn = s.intEn := rfl
@[simp] theorem State.latch_deviceId : (s.latch w).deviceId = s.deviceId := rfl
@[simp] theorem State.latch_inLen : (s.latch w).inLen = s.inLen := rfl
@[simp] theorem State.latch_outLen : (s.latch w).outLen = s.outLen := rfl
@[simp] theorem State.latch_crcAcc : (s.latch w).crcAcc = s.crcAcc := rfl
@[simp] theorem State.latch_calcCrc : (s.latch w).calcCrc = s.calcCrc := rfl
@[simp] theorem State.latch_txid : (s.latch w).txid = s.txid := rfl
@[simp] theorem State.latch_rxTxid : (s.latch w).rxTxid = s.rxTxid := rfl
@[simp] theorem State.latch_errInfo0 : (s.latch w).errInfo0 = s.errInfo0 := rfl
@[simp] theorem State.latch_errInfo1 : (s.latch w).errInfo1 = s.errInfo1 := rfl
@[simp] theorem State.latch_inBuf : (s.latch w).inBuf = s.inBuf := rfl
@[simp] theorem State.latch_outBuf : (s.latch w).outBuf = s.outBuf := rfl
@[simp] theorem State.latch_cfg : (s.latch w).cfg = s.cfg := rfl
@[simp] theorem State.latch_inputs : (s.latch w).inputs = s.inputs := rfl
@[simp] theorem State.latch_response : (s.latch w).response = s.response := rfl
@[simp] theorem State.latch_draw : (s.latch w).draw = s.draw := rfl

end

section
variable (s : State) (e : ErrCode) (a b : Word)

@[simp] theorem State.complete_busy : (s.complete e a b).busy = false := rfl
@[simp] theorem State.complete_done : (s.complete e a b).done = true := rfl
@[simp] theorem State.complete_errCode : (s.complete e a b).errCode = e := rfl
@[simp] theorem State.complete_werr : (s.complete e a b).werr = s.werr := rfl
@[simp] theorem State.complete_pending : (s.complete e a b).pending = s.pending := rfl
@[simp] theorem State.complete_intEn : (s.complete e a b).intEn = s.intEn := rfl
@[simp] theorem State.complete_deviceId : (s.complete e a b).deviceId = s.deviceId := rfl
@[simp] theorem State.complete_inLen : (s.complete e a b).inLen = s.inLen := rfl
@[simp] theorem State.complete_outLen : (s.complete e a b).outLen = s.outLen := rfl
@[simp] theorem State.complete_crcAcc : (s.complete e a b).crcAcc = s.crcAcc := rfl
@[simp] theorem State.complete_calcCrc : (s.complete e a b).calcCrc = s.calcCrc := rfl
@[simp] theorem State.complete_txid : (s.complete e a b).txid = s.txid := rfl
@[simp] theorem State.complete_rxTxid : (s.complete e a b).rxTxid = s.rxTxid := rfl
@[simp] theorem State.complete_errInfo0 : (s.complete e a b).errInfo0 = a := rfl
@[simp] theorem State.complete_errInfo1 : (s.complete e a b).errInfo1 = b := rfl
@[simp] theorem State.complete_inBuf : (s.complete e a b).inBuf = s.inBuf := rfl
@[simp] theorem State.complete_outBuf : (s.complete e a b).outBuf = s.outBuf := rfl
@[simp] theorem State.complete_cfg : (s.complete e a b).cfg = s.cfg := rfl
@[simp] theorem State.complete_inputs : (s.complete e a b).inputs = s.inputs := rfl
@[simp] theorem State.complete_response : (s.complete e a b).response = s.response := rfl
@[simp] theorem State.complete_draw : (s.complete e a b).draw = s.draw := rfl

end

section
variable (s : State) (bs : List Byte)

@[simp] theorem State.putOut_busy : (s.putOut bs).busy = s.busy := rfl
@[simp] theorem State.putOut_done : (s.putOut bs).done = s.done := rfl
@[simp] theorem State.putOut_errCode : (s.putOut bs).errCode = s.errCode := rfl
@[simp] theorem State.putOut_werr : (s.putOut bs).werr = s.werr := rfl
@[simp] theorem State.putOut_pending : (s.putOut bs).pending = s.pending := rfl
@[simp] theorem State.putOut_intEn : (s.putOut bs).intEn = s.intEn := rfl
@[simp] theorem State.putOut_deviceId : (s.putOut bs).deviceId = s.deviceId := rfl
@[simp] theorem State.putOut_inLen : (s.putOut bs).inLen = s.inLen := rfl
@[simp] theorem State.putOut_outLen : (s.putOut bs).outLen = BitVec.ofNat 16 bs.length := rfl
@[simp] theorem State.putOut_crcAcc : (s.putOut bs).crcAcc = s.crcAcc := rfl
@[simp] theorem State.putOut_calcCrc : (s.putOut bs).calcCrc = s.calcCrc := rfl
@[simp] theorem State.putOut_txid : (s.putOut bs).txid = s.txid := rfl
@[simp] theorem State.putOut_rxTxid : (s.putOut bs).rxTxid = s.rxTxid := rfl
@[simp] theorem State.putOut_errInfo0 : (s.putOut bs).errInfo0 = s.errInfo0 := rfl
@[simp] theorem State.putOut_errInfo1 : (s.putOut bs).errInfo1 = s.errInfo1 := rfl
@[simp] theorem State.putOut_inBuf : (s.putOut bs).inBuf = s.inBuf := rfl
@[simp] theorem State.putOut_outBuf : (s.putOut bs).outBuf = Memory.ofBytes 0 bs := rfl
@[simp] theorem State.putOut_cfg : (s.putOut bs).cfg = s.cfg := rfl
@[simp] theorem State.putOut_inputs : (s.putOut bs).inputs = s.inputs := rfl
@[simp] theorem State.putOut_response : (s.putOut bs).response = s.response := rfl
@[simp] theorem State.putOut_draw : (s.putOut bs).draw = s.draw := rfl

end

section
variable (s : State) (e : ErrCode) (a b : Word)

@[simp] theorem State.failOut_busy : (s.failOut e a b).busy = false := rfl
@[simp] theorem State.failOut_done : (s.failOut e a b).done = true := rfl
@[simp] theorem State.failOut_errCode : (s.failOut e a b).errCode = e := rfl
@[simp] theorem State.failOut_werr : (s.failOut e a b).werr = s.werr := rfl
@[simp] theorem State.failOut_pending : (s.failOut e a b).pending = s.pending := rfl
@[simp] theorem State.failOut_intEn : (s.failOut e a b).intEn = s.intEn := rfl
@[simp] theorem State.failOut_deviceId : (s.failOut e a b).deviceId = s.deviceId := rfl
@[simp] theorem State.failOut_inLen : (s.failOut e a b).inLen = s.inLen := rfl
@[simp] theorem State.failOut_outLen : (s.failOut e a b).outLen = 0 := rfl
@[simp] theorem State.failOut_crcAcc : (s.failOut e a b).crcAcc = s.crcAcc := rfl
@[simp] theorem State.failOut_calcCrc : (s.failOut e a b).calcCrc = s.calcCrc := rfl
@[simp] theorem State.failOut_txid : (s.failOut e a b).txid = s.txid := rfl
@[simp] theorem State.failOut_rxTxid : (s.failOut e a b).rxTxid = s.rxTxid := rfl
@[simp] theorem State.failOut_errInfo0 : (s.failOut e a b).errInfo0 = a := rfl
@[simp] theorem State.failOut_errInfo1 : (s.failOut e a b).errInfo1 = b := rfl
@[simp] theorem State.failOut_inBuf : (s.failOut e a b).inBuf = s.inBuf := rfl
@[simp] theorem State.failOut_outBuf : (s.failOut e a b).outBuf = [] := rfl
@[simp] theorem State.failOut_cfg : (s.failOut e a b).cfg = s.cfg := rfl
@[simp] theorem State.failOut_inputs : (s.failOut e a b).inputs = s.inputs := rfl
@[simp] theorem State.failOut_response : (s.failOut e a b).response = s.response := rfl
@[simp] theorem State.failOut_draw : (s.failOut e a b).draw = s.draw := rfl

end

section
variable (s : State)

@[simp] theorem State.tick_busy : (s.tick).busy = s.busy := rfl
@[simp] theorem State.tick_done : (s.tick).done = s.done := rfl
@[simp] theorem State.tick_errCode : (s.tick).errCode = s.errCode := rfl
@[simp] theorem State.tick_werr : (s.tick).werr = s.werr := rfl
@[simp] theorem State.tick_pending : (s.tick).pending = s.pending := rfl
@[simp] theorem State.tick_intEn : (s.tick).intEn = s.intEn := rfl
@[simp] theorem State.tick_deviceId : (s.tick).deviceId = s.deviceId := rfl
@[simp] theorem State.tick_inLen : (s.tick).inLen = s.inLen := rfl
@[simp] theorem State.tick_outLen : (s.tick).outLen = s.outLen := rfl
@[simp] theorem State.tick_crcAcc : (s.tick).crcAcc = s.crcAcc := rfl
@[simp] theorem State.tick_calcCrc : (s.tick).calcCrc = s.calcCrc := rfl
@[simp] theorem State.tick_txid : (s.tick).txid = s.txid := rfl
@[simp] theorem State.tick_rxTxid : (s.tick).rxTxid = s.rxTxid := rfl
@[simp] theorem State.tick_errInfo0 : (s.tick).errInfo0 = s.errInfo0 := rfl
@[simp] theorem State.tick_errInfo1 : (s.tick).errInfo1 = s.errInfo1 := rfl
@[simp] theorem State.tick_inBuf : (s.tick).inBuf = s.inBuf := rfl
@[simp] theorem State.tick_outBuf : (s.tick).outBuf = s.outBuf := rfl
@[simp] theorem State.tick_cfg : (s.tick).cfg = s.cfg := rfl
@[simp] theorem State.tick_inputs : (s.tick).inputs = s.inputs := rfl
@[simp] theorem State.tick_response : (s.tick).response = s.response := rfl
@[simp] theorem State.tick_draw : (s.tick).draw = s.draw + 1 := rfl

end

section
variable (s : State) (v : Word)

@[simp] theorem State.writeStatus_busy : (s.writeStatus v).busy = s.busy := rfl
@[simp] theorem State.writeStatus_done : (s.writeStatus v).done = (s.done && !v.getLsbD 1) := rfl
@[simp] theorem State.writeStatus_errCode : (s.writeStatus v).errCode = s.errCode := rfl
@[simp] theorem State.writeStatus_werr : (s.writeStatus v).werr = (s.werr && !v.getLsbD 8) := rfl
@[simp] theorem State.writeStatus_pending : (s.writeStatus v).pending = s.pending := rfl
@[simp] theorem State.writeStatus_intEn : (s.writeStatus v).intEn = s.intEn := rfl
@[simp] theorem State.writeStatus_deviceId : (s.writeStatus v).deviceId = s.deviceId := rfl
@[simp] theorem State.writeStatus_inLen : (s.writeStatus v).inLen = s.inLen := rfl
@[simp] theorem State.writeStatus_outLen : (s.writeStatus v).outLen = s.outLen := rfl
@[simp] theorem State.writeStatus_crcAcc : (s.writeStatus v).crcAcc = s.crcAcc := rfl
@[simp] theorem State.writeStatus_calcCrc : (s.writeStatus v).calcCrc = s.calcCrc := rfl
@[simp] theorem State.writeStatus_txid : (s.writeStatus v).txid = s.txid := rfl
@[simp] theorem State.writeStatus_rxTxid : (s.writeStatus v).rxTxid = s.rxTxid := rfl
@[simp] theorem State.writeStatus_errInfo0 : (s.writeStatus v).errInfo0 = s.errInfo0 := rfl
@[simp] theorem State.writeStatus_errInfo1 : (s.writeStatus v).errInfo1 = s.errInfo1 := rfl
@[simp] theorem State.writeStatus_inBuf : (s.writeStatus v).inBuf = s.inBuf := rfl
@[simp] theorem State.writeStatus_outBuf : (s.writeStatus v).outBuf = s.outBuf := rfl
@[simp] theorem State.writeStatus_cfg : (s.writeStatus v).cfg = s.cfg := rfl
@[simp] theorem State.writeStatus_inputs : (s.writeStatus v).inputs = s.inputs := rfl
@[simp] theorem State.writeStatus_response : (s.writeStatus v).response = s.response := rfl
@[simp] theorem State.writeStatus_draw : (s.writeStatus v).draw = s.draw := rfl

end

section
variable (s : State)

@[simp] theorem State.hardReset_busy : (s.hardReset).busy = false := rfl
@[simp] theorem State.hardReset_done : (s.hardReset).done = false := rfl
@[simp] theorem State.hardReset_errCode : (s.hardReset).errCode = .ok := rfl
@[simp] theorem State.hardReset_werr : (s.hardReset).werr = false := rfl
@[simp] theorem State.hardReset_pending : (s.hardReset).pending = 0 := rfl
@[simp] theorem State.hardReset_intEn : (s.hardReset).intEn = 0 := rfl
@[simp] theorem State.hardReset_deviceId : (s.hardReset).deviceId = 0 := rfl
@[simp] theorem State.hardReset_inLen : (s.hardReset).inLen = 0 := rfl
@[simp] theorem State.hardReset_outLen : (s.hardReset).outLen = 0 := rfl
@[simp] theorem State.hardReset_crcAcc : (s.hardReset).crcAcc = 0xFFFF := rfl
@[simp] theorem State.hardReset_calcCrc : (s.hardReset).calcCrc = 0 := rfl
@[simp] theorem State.hardReset_txid : (s.hardReset).txid = 0 := rfl
@[simp] theorem State.hardReset_rxTxid : (s.hardReset).rxTxid = 0 := rfl
@[simp] theorem State.hardReset_errInfo0 : (s.hardReset).errInfo0 = 0 := rfl
@[simp] theorem State.hardReset_errInfo1 : (s.hardReset).errInfo1 = 0 := rfl
@[simp] theorem State.hardReset_inBuf : (s.hardReset).inBuf = [] := rfl
@[simp] theorem State.hardReset_outBuf : (s.hardReset).outBuf = [] := rfl
@[simp] theorem State.hardReset_cfg : (s.hardReset).cfg = s.cfg := rfl
@[simp] theorem State.hardReset_inputs : (s.hardReset).inputs = s.inputs := rfl
@[simp] theorem State.hardReset_response : (s.hardReset).response = none := rfl
@[simp] theorem State.hardReset_draw : (s.hardReset).draw = s.draw := rfl

end

@[simp] theorem mapNext_next (f : State → State) (s : State) : mapNext f (.next s) = .next (f s) := rfl

@[simp] theorem mapNext_fault (f : State → State) (r : Fault) : mapNext f (.fault r) = .fault r := rfl

@[simp] theorem mapNext_refused (f : State → State) (r : Refusal) : mapNext f (.refused r) = .refused r := rfl

end Sys2Proof.Machine
end

