-- ==== Sys2Proof/Laws/Memory.lean ====
section
/-! SUPPORT. What the buffer operations do: reads after writes, the canonical form, a buffer made of bytes. -/

namespace Sys2Proof.Machine

@[simp] theorem Memory.read_nil (i : Nat) : Memory.read [] i = none := rfl

@[simp] theorem Memory.write_nil (i : Nat) (b : Byte) : Memory.write [] i b = [(i, b)] := rfl

@[simp] theorem Memory.ofBytes_nil (i : Nat) : Memory.ofBytes i [] = [] := rfl

@[simp] theorem Memory.ofBytes_cons (i : Nat) (b : Byte) (bs : List Byte) :
    Memory.ofBytes i (b :: bs) = (i, b) :: Memory.ofBytes (i + 1) bs := rfl

theorem Memory.read_eq_none_of_forall_lt {m : Memory} {i : Nat} (h : ∀ c ∈ m, i < c.1) : m.read i = none := by
  induction m with
  | nil => rfl
  | cons c m ih =>
    have hc := h c (by simp)
    rw [Memory.read, if_neg (by omega)]
    exact ih fun d hd => h d (by simp [hd])

theorem Memory.read_write_same (m : Memory) (i : Nat) (b : Byte) : (m.write i b).read i = some b := by
  induction m with
  | nil => simp [Memory.read]
  | cons c m ih =>
    obtain ⟨k, c⟩ := c
    rw [Memory.write]
    split
    · simp [Memory.read]
    · split
      · simp [Memory.read]
      · next h => rw [Memory.read, if_neg h, ih]

theorem Memory.read_write_other (m : Memory) {i j : Nat} (b : Byte) (h : j ≠ i) : (m.write i b).read j = m.read j := by
  induction m with
  | nil => simp [Memory.read, h]
  | cons c m ih =>
    obtain ⟨k, c⟩ := c
    rw [Memory.write]
    split
    · simp [Memory.read, h]
    · split
      · next hk => subst hk; simp [Memory.read, h]
      · simp only [Memory.read, ih]

theorem Memory.mem_write {m : Memory} {i : Nat} {b : Byte} {c : Host.Cell} (h : c ∈ m.write i b) :
    c = (i, b) ∨ c ∈ m := by
  induction m with
  | nil => simpa using h
  | cons d m ih =>
    obtain ⟨k, d⟩ := d
    rw [Memory.write] at h
    split at h
    · simpa using h
    · split at h
      · rcases List.mem_cons.1 h with h | h <;> simp [h]
      · rcases List.mem_cons.1 h with h | h
        · simp [h]
        · rcases ih h with h | h <;> simp [h]

theorem Memory.below_write {m : Memory} {i n : Nat} {b : Byte} (h : m.below n) (hi : i < n) :
    (m.write i b).below n := by
  intro c hc
  rcases Memory.mem_write hc with rfl | hc
  · exact hi
  · exact h c hc

theorem Memory.wf_cons {k : Nat} {b : Byte} {m : Memory} :
    Memory.wf ((k, b) :: m) ↔ (∀ c ∈ m, k < c.1) ∧ Memory.wf m := by
  simp [Memory.wf]

/-- A write keeps the canonical form. -/
theorem Memory.wf_write {m : Memory} (i : Nat) (b : Byte) (h : m.wf) : (m.write i b).wf := by
  induction m with
  | nil => simp [Memory.wf]
  | cons c m ih =>
    obtain ⟨k, c⟩ := c
    obtain ⟨hk, hm⟩ := Memory.wf_cons.1 h
    rw [Memory.write]
    split
    · next hi =>
      refine Memory.wf_cons.2 ⟨?_, h⟩
      intro d hd
      rcases List.mem_cons.1 hd with rfl | hd
      · exact hi
      · exact hi.trans (hk d hd)
    · split
      · next hi => subst hi; exact Memory.wf_cons.2 ⟨hk, hm⟩
      · refine Memory.wf_cons.2 ⟨?_, ih hm⟩
        intro d hd
        rcases Memory.mem_write hd with rfl | hd
        · simp only; omega
        · exact hk d hd

theorem Memory.mem_ofBytes {bs : List Byte} {i : Nat} {c : Host.Cell} (h : c ∈ Memory.ofBytes i bs) :
    i ≤ c.1 ∧ c.1 < i + bs.length := by
  induction bs generalizing i with
  | nil => simp at h
  | cons b bs ih =>
    rcases List.mem_cons.1 h with rfl | h
    · simp
    · have := ih h
      simp only [List.length_cons]
      omega

/-- A buffer made of bytes is in canonical form. -/
theorem Memory.wf_ofBytes (i : Nat) (bs : List Byte) : (Memory.ofBytes i bs).wf := by
  induction bs generalizing i with
  | nil => simp [Memory.wf]
  | cons b bs ih =>
    refine Memory.wf_cons.2 ⟨fun c hc => ?_, ih _⟩
    have := Memory.mem_ofBytes hc
    omega

/-- What a buffer made of bytes reads as. -/
theorem Memory.read_ofBytes (i : Nat) (bs : List Byte) (j : Nat) :
    (Memory.ofBytes i bs).read j = if i ≤ j then bs[j - i]? else none := by
  induction bs generalizing i with
  | nil => simp
  | cons b bs ih =>
    rw [Memory.ofBytes_cons, Memory.read, ih]
    rcases Nat.lt_trichotomy j i with h | h | h
    · rw [if_neg (by omega), if_neg (by omega), if_neg (by omega)]
    · subst h; simp
    · obtain ⟨d, rfl⟩ : ∃ d, j = i + 1 + d := ⟨j - (i + 1), by omega⟩
      rw [if_neg (by omega), if_pos (by omega), if_pos (by omega),
        show i + 1 + d - (i + 1) = d by omega, show i + 1 + d - i = d + 1 by omega, List.getElem?_cons_succ]

theorem Memory.read_ofBytes_zero (bs : List Byte) (j : Nat) : (Memory.ofBytes 0 bs).read j = bs[j]? := by
  simp [Memory.read_ofBytes]

end Sys2Proof.Machine
end

