-- ==== Sys2Proof/Laws/Operands.lean ====
section
/-! SUPPORT. What the operand reads give: IN bytes, IN slices, 16-bit values from bytes. -/

namespace Sys2Proof.Machine

theorem State.inByte_of_read {s : State} {i : Nat} {b : Byte} (h : s.inBuf.read i = some b) : s.inByte i = b := by
  simp [State.inByte, h]

/-- A ⊥ byte is the step's free value. -/
theorem State.inByte_of_unspecified {s : State} {i : Nat} (h : s.inBuf.read i = none) :
    s.inByte i = Config.freeInByte s.draw i := by
  simp [State.inByte, h]

theorem State.inByte_congr {s t : State} (hm : s.inBuf = t.inBuf) (hd : s.draw = t.draw) : s.inByte = t.inByte := by
  funext i
  simp [State.inByte, hm, hd]

theorem State.inSlice_congr {s t : State} (hm : s.inBuf = t.inBuf) (hd : s.draw = t.draw) (i j : Nat) :
    s.inSlice i j = t.inSlice i j := by
  simp [State.inSlice, State.inByte_congr hm hd]

@[simp] theorem State.length_inSlice (s : State) (i j : Nat) : (s.inSlice i j).length = j - i := by
  simp [State.inSlice]

theorem State.getElem?_inSlice (s : State) (i j k : Nat) :
    (s.inSlice i j)[k]? = if k < j - i then some (s.inByte (i + k)) else none := by
  by_cases h : k < j - i
  · simp [State.inSlice, h]
  · simp [State.inSlice, h]

@[simp] theorem halfOf_hiByte_loByte (v : Half) : halfOf (hiByte v) (loByte v) = v := by
  ext k hk
  simp only [halfOf, hiByte, loByte, BitVec.getElem_or, BitVec.getElem_shiftLeft, BitVec.getElem_setWidth,
    BitVec.getLsbD_extractLsb']
  by_cases h : k < 8
  · simp [h, BitVec.getLsbD_eq_getElem hk]
  · have h1 : k - 8 < 8 := by omega
    have h2 : 8 + (k - 8) = k := by omega
    simp [h, h1, h2, BitVec.getLsbD_eq_getElem hk]

@[simp] theorem hiByte_halfOf (hi lo : Byte) : hiByte (halfOf hi lo) = hi := by
  ext k hk
  have h1 : 8 + k < 16 := by omega
  simp [halfOf, hiByte, BitVec.getLsbD_eq_getElem hk, h1]

@[simp] theorem loByte_halfOf (hi lo : Byte) : loByte (halfOf hi lo) = lo := by
  ext k hk
  have h1 : k < 16 := by omega
  simp [halfOf, loByte, hk, h1]

end Sys2Proof.Machine
end

