-- ==== Sys2Proof/Laws/Bus.lean ====
section
/-! SUPPORT. The map of the window, and the four things an access can do. -/

namespace Sys2Proof.Machine

theorem regAt_offset (r : Reg) : regAt r.offset.toNat = some r := by cases r <;> rfl

/-- A register is found at its offset, whatever BUF_SIZE is. -/
@[simp] theorem locate_reg (n : Nat) (r : Reg) : locate n r.offset = .reg r := by cases r <;> rfl

theorem regAt_eq_some {off : Nat} {r : Reg} (h : regAt off = some r) : off = r.offset.toNat := by
  unfold regAt at h
  split at h <;> cases h <;> rfl

theorem toNat_inOffset {i : Nat} (h : i < 1024) : (BitVec.ofNat 14 (0x1000 + 4 * i)).toNat = 0x1000 + 4 * i := by
  rw [BitVec.toNat_ofNat]
  omega

theorem toNat_outOffset {i : Nat} (h : i < 1024) : (BitVec.ofNat 14 (0x2000 + 4 * i)).toNat = 0x2000 + 4 * i := by
  rw [BitVec.toNat_ofNat]
  omega

/-- The word of IN byte `i` (spec/10_state.md R21). -/
theorem locate_inWord {n i : Nat} (h : i < 1024) :
    locate n (BitVec.ofNat 14 (0x1000 + 4 * i)) = if i < n then .inWord i else .reserved := by
  have hd : (0x1000 + 4 * i - 0x1000) / 4 = i := by omega
  simp only [locate, toNat_inOffset h, hd]
  rw [if_neg (by omega), if_pos (by omega)]

/-- The word of OUT byte `i` (spec/10_state.md R21). -/
theorem locate_outWord {n i : Nat} (h : i < 1024) :
    locate n (BitVec.ofNat 14 (0x2000 + 4 * i)) = if i < n then .outWord i else .reserved := by
  have hd : (0x2000 + 4 * i - 0x2000) / 4 = i := by omega
  simp only [locate, toNat_outOffset h, hd]
  rw [if_neg (by omega), if_neg (by omega), if_pos (by omega)]

/-- An IN word found is below BUF_SIZE, and at the offset of its byte. -/
theorem locate_eq_inWord {n i : Nat} {off : Offset} (h : locate n off = .inWord i) :
    i < n ∧ i = (off.toNat - 0x1000) / 4 ∧ 0x1000 ≤ off.toNat ∧ off.toNat < 0x2000 := by
  simp only [locate] at h
  split at h
  · split at h <;> cases h
  · split at h
    · split at h
      · next h1 h2 h3 =>
        cases h
        exact ⟨h3, rfl, by omega, h2⟩
      · cases h
    · split at h
      · split at h <;> cases h
      · cases h

theorem locate_eq_reg {n : Nat} {off : Offset} {r : Reg} (h : locate n off = .reg r) : off = r.offset := by
  simp only [locate] at h
  split at h
  · split at h
    · next h' => cases h; exact BitVec.eq_of_toNat_eq (regAt_eq_some h')
    · cases h
  · split at h
    · split at h <;> cases h
    · split at h
      · split at h <;> cases h
      · cases h

/-- Everything one access can do: a bus error, a read, a dropped write, a write that takes effect. -/
theorem busAccess_cases (s : State) (a : Access) :
    (a.accepted = false ∧ s.busAccess a = { s with response := some .busError }) ∨
    (a.accepted = true ∧ a.op = .read ∧ s.busAccess a = { s with response := some (.data (s.hostRead a.offset)) }) ∨
    (∃ v, a.accepted = true ∧ a.op = .write v ∧ s.busy = true ∧
      s.busAccess a = { s with werr := true, response := some .ack }) ∨
    (∃ v, a.accepted = true ∧ a.op = .write v ∧ s.busy = false ∧
      s.busAccess a = { s.writeIdle (locate s.cfg.bufSize a.offset) v with response := some .ack }) := by
  rcases a with ⟨off, size, op⟩
  cases hacc : Access.accepted ⟨off, size, op⟩
  · exact .inl ⟨rfl, by simp [State.busAccess, hacc]⟩
  · cases op with
    | read => exact .inr (.inl ⟨rfl, rfl, by simp [State.busAccess, hacc, State.acceptedAccess]⟩)
    | write v =>
      cases hb : s.busy
      · exact .inr (.inr (.inr ⟨v, rfl, rfl, rfl, by
          simp [State.busAccess, hacc, State.acceptedAccess, State.hostWrite, hb]⟩))
      · exact .inr (.inr (.inl ⟨v, rfl, rfl, rfl, by
          simp [State.busAccess, hacc, State.acceptedAccess, State.hostWrite, hb]⟩))

end Sys2Proof.Machine
end

