-- ==== Sys2Proof/Laws/Step.lean ====
section
/-! SUPPORT. Everything one step can do. -/

namespace Sys2Proof.Machine

/-- The agents' turns: which state the engine starts from, or what the host or the platform did. -/
theorem turn_cases (s : State) :
    (∃ rest, (s.inputs = .quiet :: rest ∨ s.inputs = [] ∧ rest = []) ∧
      turn s = engineTurn { s with inputs := rest }) ∨
    (∃ a rest, s.inputs = .access a :: rest ∧ turn s = .next (State.busAccess { s with inputs := rest } a)) ∨
    (∃ rest, s.inputs = .hardReset :: rest ∧ turn s = .next (State.hardReset { s with inputs := rest })) := by
  cases hin : s.inputs with
  | nil =>
    refine .inl ⟨[], .inr ⟨rfl, rfl⟩, ?_⟩
    have hs : { s with inputs := [] } = s := by rw [← hin]
    rw [hs, turn, hin]
  | cons i rest =>
    cases i with
    | access a => exact .inr (.inl ⟨a, rest, rfl, by rw [turn, hin]; rfl⟩)
    | quiet => exact .inl ⟨rest, .inl rfl, by rw [turn, hin]; rfl⟩
    | hardReset => exact .inr (.inr ⟨rest, rfl, by rw [turn, hin]; rfl⟩)

/-- A step that answers a next state is a turn that does, and the step number moves on. -/
theorem step_eq_next {s t : State} : step s = .next t ↔ ∃ u, turn s = .next u ∧ t = u.tick := by
  unfold step
  cases turn s with
  | next u => simp [eq_comm]
  | fault r => cases r
  | refused r => simp [mapNext]

/-- A run of the machine, one step at a time. -/
theorem core_run_succ {s s' : State} (h : step s = .next s') (k : Nat) : core.run (k + 1) s = core.run k s' := by
  simp only [Host.Core.run]
  rw [show core.step s = .next s' from h]

/-- The engine's turn with a latched command. -/
theorem engineTurn_of_busy {s : State} (h : s.busy = true) : engineTurn s = performPending s := by
  simp [engineTurn, h]

/-- The engine's turn on an idle block. -/
theorem engineTurn_of_idle {s : State} (h : s.busy = false) : engineTurn s = .next s := by
  simp [engineTurn, h]

/-- What performing the latched word can be: the meaning of the command it decodes to, or the illegal completion. -/
theorem performPending_cases {s u : State} (h : performPending s = .next u) :
    (∃ i, decode s.pending = .instr i ∧ exec i s = .next u) ∨
    (∃ why, decode s.pending = .illegal why ∧ u = s.complete .illegalCommand 0 s.pending) := by
  unfold performPending at h
  split at h
  · next i hi => exact .inl ⟨i, hi, h⟩
  · next y hy =>
    unfold execIllegal at h
    cases h
    exact .inr ⟨y, hy, rfl⟩

end Sys2Proof.Machine
end

