-- ==== Sys2Proof/Laws/HostNotation.lean ====
section
/-! SUPPORT. What one statement of a host thread does, and how runs of the system compose. -/

namespace Sys2Proof.Machine

/-- Every target stands for an aligned offset. -/
theorem Target.offset_aligned (t : Target) : t.offset.toNat % 4 = 0 := by
  cases t with
  | reg r => cases r <;> rfl
  | inByte k => simp only [Target.offset, BitVec.toNat_ofNat]; omega
  | outByte k => simp only [Target.offset, BitVec.toNat_ofNat]; omega

/-- `RD` on the bus: the block answers and is as it was. -/
theorem busAccess_readAccess (s : State) (t : Target) :
    s.busAccess (readAccess t) = { s with response := some (.data (s.hostRead t.offset)) } := by
  simp [State.busAccess, Access.accepted, readAccess, t.offset_aligned, State.acceptedAccess]

/-- `WR` on the bus. -/
theorem busAccess_writeAccess (s : State) (t : Target) (v : Word) :
    s.busAccess (writeAccess t v) = { s.hostWrite t.offset v with response := some .ack } := by
  simp [State.busAccess, Access.accepted, writeAccess, t.offset_aligned, State.acceptedAccess]

section
variable {h : HostThread} {st : Stmt} {rest : List Stmt}

theorem HostThread.current_of_prog (ht : h.todo = []) (hp : h.prog[h.pc]? = some st) (hw : st.wellFormed = true) :
    h.current = some st := by
  simp [HostThread.current, ht, hp, hw]

theorem HostThread.current_of_todo (ht : h.todo = st :: rest) (hw : st.wellFormed = true) : h.current = some st := by
  simp [HostThread.current, ht, hw]

theorem HostThread.skip_of_prog (ht : h.todo = []) : h.skip = { h with pc := h.pc + 1 } := by
  simp [HostThread.skip, ht]

theorem HostThread.skip_of_todo (ht : h.todo = st :: rest) : h.skip = { h with todo := rest } := by
  simp [HostThread.skip, ht]

end

section
variable (h : HostThread) (x y : Var) (v : Word) (more : List Stmt)

@[simp] theorem HostThread.skip_prog : h.skip.prog = h.prog := by
  unfold HostThread.skip
  split <;> rfl

@[simp] theorem HostThread.skip_vars : h.skip.vars = h.vars := by
  unfold HostThread.skip
  split <;> rfl

@[simp] theorem HostThread.lookup_skip : h.skip.lookup y = h.lookup y := by simp [HostThread.lookup]

@[simp] theorem HostThread.assign_prog : (h.assign x v).prog = h.prog := h.skip_prog
@[simp] theorem HostThread.assign_vars : (h.assign x v).vars = (x, v) :: h.vars := rfl
@[simp] theorem HostThread.assign_pc : (h.assign x v).pc = h.skip.pc := rfl
@[simp] theorem HostThread.assign_todo : (h.assign x v).todo = h.skip.todo := rfl

@[simp] theorem HostThread.lookup_assign_self : (h.assign x v).lookup x = some v := by simp [HostThread.lookup]

theorem HostThread.lookup_assign_of_ne (hne : y ≠ x) : (h.assign x v).lookup y = h.lookup y := by
  simp [HostThread.lookup, List.lookup_cons, beq_false_of_ne hne]

@[simp] theorem HostThread.push_nil : h.push [] = h := rfl
@[simp] theorem HostThread.push_prog : (h.push more).prog = h.prog := rfl
@[simp] theorem HostThread.push_vars : (h.push more).vars = h.vars := rfl
@[simp] theorem HostThread.push_pc : (h.push more).pc = h.pc := rfl
@[simp] theorem HostThread.push_todo : (h.push more).todo = more ++ h.todo := rfl
@[simp] theorem HostThread.lookup_push : (h.push more).lookup y = h.lookup y := rfl

end

section
variable {h : HostThread} {s : State} {x n o : Var} {t : Target} {w : Value} {v : Word} {l : Label}

/-- Everything a `WR` does. -/
theorem hostStmt_wr (hc : h.current = some (.wr t w)) (hv : h.value w = some v) :
    hostStmt h s = some (h.skip, { s.hostWrite t.offset v with response := some .ack }) := by
  simp [hostStmt, hc, hv, busAccess_writeAccess]

/-- Everything a `RD` does. -/
theorem hostStmt_rd (hc : h.current = some (.rd x t)) :
    hostStmt h s =
      some (h.assign x (s.hostRead t.offset), { s with response := some (.data (s.hostRead t.offset)) }) := by
  simp [hostStmt, hc, busAccess_readAccess, HostThread.receive]

/-- Everything the first statement of `READOUT` does. -/
theorem hostStmt_readOut (hc : h.current = some (.readOut n o)) :
    hostStmt h s =
      some ((h.assign n (s.hostRead 0x001C)).push (readBytes o (s.hostRead 0x001C).toNat),
        { s with response := some (.data (s.hostRead 0x001C)) }) := by
  have ho : (Target.reg .outLen).offset = 0x001C := rfl
  simp [hostStmt, hc, busAccess_readAccess, HostThread.receive, ho]

/-- Everything the first statement of `COPYOUT` does. -/
theorem hostStmt_copyOut (hc : h.current = some (.copyOut n o)) :
    hostStmt h s =
      some ((h.assign n (s.hostRead 0x001C)).push
          (readBytes o (s.hostRead 0x001C).toNat ++ writeBytes n o (s.hostRead 0x001C).toNat),
        { s with response := some (.data (s.hostRead 0x001C)) }) := by
  have ho : (Target.reg .outLen).offset = 0x001C := rfl
  simp [hostStmt, hc, busAccess_readAccess, HostThread.receive, ho]

theorem hostStmt_label (hc : h.current = some (.label l)) : hostStmt h s = some (h.skip, s) := by
  simp [hostStmt, hc]

/-- `BNZ` on a variable that is set. -/
theorem hostStmt_bnz {m : Word} (hc : h.current = some (.bnz x m l)) (hx : h.lookup x = some v) :
    hostStmt h s = (if v &&& m ≠ 0 then h.goto l else some h.skip).map fun h' => (h', s) := by
  by_cases hm : v &&& m = 0 <;> simp [hostStmt, hc, HostThread.branch, hx, hm]

end

theorem systemRun_append (as bs : List Agent) (h : HostThread) (s : State) :
    systemRun (as ++ bs) h s = (systemRun as h s).bind fun p => systemRun bs p.1 p.2 := by
  induction as generalizing h s with
  | nil => rfl
  | cons a as ih =>
    simp only [List.cons_append, systemRun]
    cases systemStep a h s with
    | none => rfl
    | some p => exact ih _ _

/-- A run that starts with a host statement. -/
theorem systemRun_host {h h' : HostThread} {s t : State} (hs : hostStmt h s = some (h', t)) (as : List Agent) :
    systemRun (.host :: as) h s = systemRun as h' t.tick := by
  simp [systemRun, systemStep, hs]

/-- A run that starts with an engine turn. -/
theorem systemRun_engine {s t : State} (hs : engineTurn s = .next t) (h : HostThread) (as : List Agent) :
    systemRun (.engine :: as) h s = systemRun as h t.tick := by
  simp [systemRun, systemStep, hs]

end Sys2Proof.Machine
end

