-- ==== Sys2Proof/Laws/PerInstr.lean ====
section
/-! SUPPORT. The family RoundTrip: each command's word is legal and decodes to the command. -/

namespace Sys2Proof.Laws.RoundTrip

/-- The encoding of `i` has its reserved bits zero, an assigned OP, and decodes to `i` (spec/30_encoding.md R92-R94). -/
def Statement (i : Instr) : Prop :=
  i.wellFormed = true ∧ commandWordLegal (encode i) = true ∧ decode (encode i) = .instr i

theorem nop : Statement .nop := by unfold Statement; decide
theorem crcInit : Statement .crcInit := by unfold Statement; decide
theorem crcUpdate : Statement .crcUpdate := by unfold Statement; decide
theorem rtuWrap : Statement .rtuWrap := by unfold Statement; decide
theorem rtuUnwrap : Statement .rtuUnwrap := by unfold Statement; decide
theorem tcpWrap : Statement .tcpWrap := by unfold Statement; decide
theorem tcpUnwrap : Statement .tcpUnwrap := by unfold Statement; decide
theorem softReset : Statement .softReset := by unfold Statement; decide

end Sys2Proof.Laws.RoundTrip
end

