-- ==== Sys2Proof/Tests/Slice0.lean ====
section
/-! SUPPORT. The model's own tests: refusals of ill-formed terms, words written out from spec/30_encoding.md R92, single
commands on the vectors of spec/95_test_vectors.md, and a witness for the hypotheses of each statement. -/

namespace Sys2Proof.Tests

open Sys2Proof.Machine

/-! ### Helpers -/

/-- A block with BUF_SIZE = `size`, DEVICE_ID = `d`, the bytes in IN_BUF and their number in IN_LEN. -/
def block (size : Nat) (d : Byte) (bytes : List Byte) : State :=
  { State.resetWith { bufSize := size } with
    deviceId := d, inBuf := Memory.ofBytes 0 bytes, inLen := BitVec.ofNat 16 bytes.length }

/-- The state a command leaves. -/
def after (i : Instr) (s : State) : State :=
  match exec i s with
  | .next t => t
  | _ => s

/-- The state one step leaves. -/
def stepped (s : State) : State :=
  match step s with
  | .next t => t
  | _ => s

/-- A step answers a next state. -/
def goesOn (s : State) : Bool :=
  match step s with
  | .next _ => true
  | _ => false

theorem step_stepped {s : State} (h : goesOn s = true) : step s = .next (stepped s) := by
  unfold goesOn at h
  unfold stepped
  cases hs : step s <;> simp_all

/-- The report: ERRCODE, ERR_INFO0, ERR_INFO1. -/
def report (s : State) : BitVec 4 × Word × Word := (s.errCode.number, s.errInfo0, s.errInfo1)

def rd (off : Offset) : Access := { offset := off, size := 4, op := .read }

def wr (off : Offset) (v : Word) : Access := { offset := off, size := 4, op := .write v }

/-- The frame of vector V-RW1. -/
def frameRW1 : List Byte := [0x01, 0x03, 0x00, 0x64, 0x00, 0x0A, 0x84, 0x12]

/-- The frame of the source's example S1. -/
def frameTW1 : List Byte := [0x00, 0x01, 0x00, 0x00, 0x00, 0x06, 0x01, 0x03, 0x00, 0x64, 0x00, 0x0A]

def pdu : List Byte := [0x03, 0x00, 0x64, 0x00, 0x0A]

/-! ### Well-formedness: each check refuses an ill-formed term -/

theorem test_reserved_bit_refused : reservedBitsZero 0x00000013 = false ∧ commandWordLegal 0x00000013 = false := by decide
theorem test_reserved_op_refused : opAssigned 0x00000008 = false ∧ commandWordLegal 0x00000008 = false := by decide
theorem test_bufSize_refused : ¬Config.legal { bufSize := 7 } ∧ ¬Config.legal { bufSize := 1025 } := by decide
theorem test_target_refused : (Target.inByte 1024).wellFormed = false ∧ (Target.outByte 1024).wellFormed = false := by
  decide
theorem test_stmt_refused : (Stmt.readOut 1 1).wellFormed = false ∧ (Stmt.copyOut 2 1).wellFormed = false ∧
    (Stmt.wr (.inByte 1024) (.num 0)).wellFormed = false ∧ (Stmt.rd 0 (.outByte 1024)).wellFormed = false := by decide
theorem test_access_refused : Access.accepted { offset := 0x0014, size := 1, op := .read } = false ∧
    Access.accepted { offset := 0x0016, size := 4, op := .read } = false := by decide

/-! ### Decoding: words written out bit by bit from R90 and R92 (RSVD [31:4], OP [3:0]) -/

theorem test_decode_nop : decode 0b00000000000000000000000000000000 = .instr .nop := by decide
theorem test_decode_crcInit : decode 0b00000000000000000000000000000001 = .instr .crcInit := by decide
theorem test_decode_crcUpdate : decode 0b00000000000000000000000000000010 = .instr .crcUpdate := by decide
theorem test_decode_rtuWrap : decode 0b00000000000000000000000000000011 = .instr .rtuWrap := by decide
theorem test_decode_rtuUnwrap : decode 0b00000000000000000000000000000100 = .instr .rtuUnwrap := by decide
theorem test_decode_tcpWrap : decode 0b00000000000000000000000000000101 = .instr .tcpWrap := by decide
theorem test_decode_tcpUnwrap : decode 0b00000000000000000000000000000110 = .instr .tcpUnwrap := by decide
theorem test_decode_softReset : decode 0b00000000000000000000000000000111 = .instr .softReset := by decide
/-- V-K3, V-K4, V-K5. -/
theorem test_decode_illegal : decode 0x00000008 = .illegal .reservedOp ∧
    decode 0x00000013 = .illegal .reservedBitSet ∧ decode 0xFFFFFFFF = .illegal .reservedBitSet := by decide
theorem test_decodeTableWord : decodeTableWord 32 6 = some .tcpUnwrap ∧ decodeTableWord 32 9 = none := by decide

/-! ### The CRC (spec/95_test_vectors.md 2.1) -/

/-- V-C1 to V-C4, V-C6. -/
theorem test_crcStep : crcStep 0xFFFF 0x00 = 0x40BF ∧ crcStep 0xFFFF 0x01 = 0x807E ∧ crcStep 0xFFFF 0x80 = 0xE0BE ∧
    crcStep 0xFFFF 0xFF = 0x00FF ∧ crcStep 0x0000 0x01 = 0xC0C1 := by decide
/-- V-C8: ASCII "123456789". -/
theorem test_crc_check_value :
    crc16 0xFFFF [0x31, 0x32, 0x33, 0x34, 0x35, 0x36, 0x37, 0x38, 0x39] = 0x4B37 := by decide +kernel
/-- V-C12. -/
theorem test_crc_ones : crc16 0xFFFF [0xFF, 0xFF, 0xFF, 0xFF] = 0xB001 := by decide +kernel

/-! ### The commands, one or two vectors each -/

/-- V-K1. -/
theorem test_nop : report (after .nop { block 260 1 [] with errCode := .crcMismatch, errInfo0 := 1, errInfo1 := 2 }) =
    (0, 0, 0) := by decide
/-- V-CI1. -/
theorem test_crcInit : (after .crcInit { block 260 1 [] with crcAcc := 0x1234 }).crcAcc = 0xFFFF := by decide
/-- V-CU2. -/
theorem test_crcUpdate : (after .crcUpdate { block 260 1 [0x01] with crcAcc := 0x0000 }).crcAcc = 0xC0C1 := by decide
/-- V-CU4. -/
theorem test_crcUpdate_overflow : report (after .crcUpdate { block 8 1 [] with inLen := 9 }) = (6, 8, 9) := by decide
/-- V-RW1. -/
theorem test_rtuWrap : (after .rtuWrap (block 260 0x01 pdu)).outBuf = Memory.ofBytes 0 frameRW1 ∧
    (after .rtuWrap (block 260 0x01 pdu)).calcCrc = 0x1284 := by decide +kernel
/-- V-RW8. -/
theorem test_rtuWrap_overflow : report (after .rtuWrap (block 8 0x01 [1, 2, 3, 4, 5, 6])) = (6, 8, 9) := by decide
/-- V-RU1. -/
theorem test_rtuUnwrap : (after .rtuUnwrap (block 260 0x01 frameRW1)).outBuf = Memory.ofBytes 0 pdu ∧
    (after .rtuUnwrap (block 260 0x01 frameRW1)).outLen = 5 := by decide +kernel
/-- V-RU5. -/
theorem test_rtuUnwrap_crc :
    report (after .rtuUnwrap (block 260 0x01 [0x01, 0x03, 0x00, 0x65, 0x00, 0x0A, 0x84, 0x12])) =
      (3, 0xD2D5, 0x1284) := by decide +kernel
/-- S1, V-TW1. -/
theorem test_tcpWrap : (after .tcpWrap (block 260 0x01 pdu)).outBuf = Memory.ofBytes 0 frameTW1 ∧
    (after .tcpWrap (block 260 0x01 pdu)).txid = 0x0001 := by decide
/-- V-TW3: the transaction id wraps. -/
theorem test_tcpWrap_wrap : (after .tcpWrap { block 260 0x01 [0x03] with txid := 0xFFFF }).outBuf =
    Memory.ofBytes 0 [0x00, 0x00, 0x00, 0x00, 0x00, 0x02, 0x01, 0x03] := by decide
/-- V-TU11. -/
theorem test_tcpUnwrap :
    let t := after .tcpUnwrap (block 260 0x01 [0x00, 0x07, 0x00, 0x00, 0x00, 0x03, 0x01, 0x03, 0x00, 0xAA, 0xBB])
    t.outBuf = Memory.ofBytes 0 [0x03, 0x00] ∧ t.rxTxid = 0x0007 := by decide
/-- V-TU10: the expected length does not wrap. -/
theorem test_tcpUnwrap_declared :
    report (after .tcpUnwrap (block 260 0x01 [0x00, 0x01, 0x00, 0x00, 0xFF, 0xFF, 0x01, 0x03])) =
      (1, 0x10005, 8) := by decide
/-- V-K2, and R51: PENDING is 0 after it. -/
theorem test_softReset :
    let t := after .softReset { block 260 0x01 pdu with txid := 1, intEn := 0x1, werr := true, pending := 7 }
    t.txid = 0 ∧ t.deviceId = 0 ∧ t.crcAcc = 0xFFFF ∧ t.intEn = 0x1 ∧ t.irq = true ∧ t.werr = false ∧
    t.pending = 0 := by decide
/-- V-K5. -/
theorem test_illegal : report (stepped (State.reset.withFetchWord 32 0xFFFFFFFF)) = (7, 0, 0xFFFFFFFF) := by decide
/-- A placed word is what the next step runs. -/
theorem test_withFetchWord : (stepped ((block 260 0x01 pdu).withFetchWord 32 5)).txid = 0x0001 := by decide

/-! ### The bus (spec/95_test_vectors.md 2.7) -/

/-- V-B3. -/
theorem test_busy_write : (((block 260 1 []).latch 5).busAccess (wr 0x0014 5)).deviceId = 1 ∧
    (((block 260 1 []).latch 5).busAccess (wr 0x0014 5)).werr = true := by decide
/-- V-B4. -/
theorem test_w1c : ({ State.reset with werr := true, done := true }.busAccess (wr 0x000C 0x00000100)).werr = false ∧
    ({ State.reset with werr := true, done := true }.busAccess (wr 0x000C 0x00000100)).done = true := by decide
/-- V-B5, V-B7, V-B8. -/
theorem test_reads : (State.reset.busAccess (rd 0x0038)).response = some (.data 0) ∧
    (State.reset.busAccess (rd 0x1410)).response = some (.data 0) ∧
    (State.reset.busAccess (rd 0x0000)).response = some (.data 0x4D420001) ∧
    (State.reset.busAccess (rd 0x0004)).response = some (.data 0x00000104) := by decide
/-- V-B6. -/
theorem test_write_read : ((State.reset.busAccess (wr 0x0014 0xFFFFFFAB)).busAccess (rd 0x0014)).response =
    some (.data 0x000000AB) := by decide
/-- P3: STATUS after a CRC mismatch. -/
theorem test_status_word : { State.reset with errCode := .crcMismatch, done := true }.statusWord = 0x00000036 := by decide
/-- An access slot comes before the engine; the write is dropped (P5 (b)). -/
theorem test_access_slot : (stepped { (block 260 1 [3]).latch 5 with inputs := [.access (wr 0x0018 0)] }).inLen = 1 ∧
    (stepped { (block 260 1 [3]).latch 5 with inputs := [.access (wr 0x0018 0)] }).werr = true := by decide

/-! ### Witnesses: for each statement with hypotheses, states and operands that meet them, clause by clause -/

/-- BUF_SIZE = 8 and a command latched. -/
def latched (w : Word) : State := (block 8 0x01 [0x01, 0x02, 0x03]).latch w

/-- BUF_SIZE = 8 and IN_LEN = `n`. -/
def sized (n : Half) : State := { block 8 0x01 [] with inLen := n }

theorem inv_block : (block 260 0x01 pdu).Inv :=
  ⟨by decide, ⟨by decide, by decide⟩, ⟨by decide, by decide, fun i => by simp [block, State.resetWith]⟩,
    by simp [State.BusyExcludesDone, block, State.resetWith], ⟨rfl, rfl⟩⟩

theorem witness_ResetMeetsTheInvariant : Config.legal { bufSize := 8 } ∧ Config.legal { bufSize := 1024 } := by decide
theorem witness_StepKeepsTheInvariant : (block 260 0x01 pdu).Inv ∧ ∃ t, step (block 260 0x01 pdu) = .next t :=
  ⟨inv_block, _, rfl⟩
theorem witness_StepRunsTheDecodedCommand : (latched 3).busy = true ∧ decode (latched 3).pending = .instr .rtuWrap ∧
    (latched 3).inputs = [] ∧ { latched 3 with inputs := [.quiet] }.inputs = .quiet :: [] ∧
    { latched 3 with inputs := [.access (rd 0x000C)] }.inputs = .access (rd 0x000C) :: [] := by decide
theorem witness_IllegalWordPostsItself : (latched 0x10).busy = true ∧ (latched 0x10).pending.extractLsb' 4 28 ≠ 0 ∧
    (latched 8).busy = true ∧ 8 ≤ ((latched 8).pending.extractLsb' 0 4).toNat := by decide
theorem witness_IdleEngineChangesNothing : State.reset.busy = false ∧ State.reset.inputs = [] := by decide
theorem witness_LatchedCommandCompletes :
    let s := { latched 5 with inputs := [.access (wr 0x0018 0), .access (rd 0x000C), .quiet] }
    s.busy = true ∧ Input.hardReset ∉ s.inputs := by decide
theorem witness_CrcUpdateFoldsTheInput : (sized 8).inLen.toNat ≤ (sized 8).cfg.bufSize ∧
    (sized 9).cfg.bufSize < (sized 9).inLen.toNat := by decide
theorem witness_RtuWrapBuildsTheFrame : (sized 5).cfg.legal ∧ (sized 5).inLen.toNat + 3 ≤ (sized 5).cfg.bufSize ∧
    (sized 9).cfg.bufSize < (sized 9).inLen.toNat ∧ (sized 6).inLen.toNat ≤ (sized 6).cfg.bufSize ∧
    (sized 6).cfg.bufSize < (sized 6).inLen.toNat + 3 := by decide
/-- The five clauses in order, at the ends of their ranges: n = 9, 3, 4 with a wrong address, 4 with a wrong CRC, 4
with the shortest good frame (V-RU2). -/
theorem witness_RtuUnwrapChecksAndExtracts :
    let bad := block 8 0x01 [0x02, 0x07, 0x41, 0xE2]
    let wrong := block 8 0x01 [0x01, 0x07, 0x41, 0xE3]
    let good := block 8 0x01 [0x01, 0x07, 0x41, 0xE2]
    let crc := fun s : State => ((List.range (s.inLen.toNat - 2)).map s.inByte).foldl crcStep 0xFFFF
    let rx := fun s : State => ((s.inByte 3).setWidth 16 <<< 8) ||| (s.inByte 2).setWidth 16
    (sized 9).cfg.bufSize < (sized 9).inLen.toNat ∧ (sized 3).inLen.toNat < 4 ∧
    (4 ≤ bad.inLen.toNat ∧ bad.inByte 0 ≠ bad.deviceId) ∧
    (4 ≤ wrong.inLen.toNat ∧ wrong.inByte 0 = wrong.deviceId ∧ crc wrong ≠ rx wrong) ∧
    (4 ≤ good.inLen.toNat ∧ good.inByte 0 = good.deviceId ∧ crc good = rx good) := by decide +kernel
theorem witness_TcpWrapAdvancesTxidAndBuildsTheFrame : (sized 1).cfg.legal ∧
    (sized 1).inLen.toNat + 7 ≤ (sized 1).cfg.bufSize ∧ (sized 9).cfg.bufSize < (sized 9).inLen.toNat ∧
    (sized 2).inLen.toNat ≤ (sized 2).cfg.bufSize ∧ (sized 2).cfg.bufSize < (sized 2).inLen.toNat + 7 := by decide
/-- The clauses beyond the two length checks: protocol id 0x0001 and 0x0100, a wrong unit id, declared length 3 and 0
in a frame of 8, and declared length 2 in a frame of 8, the longest that fits. -/
theorem witness_TcpUnwrapChecksAndExtracts :
    let p := fun s : State => ((s.inByte 2).setWidth 16 <<< 8) ||| (s.inByte 3).setWidth 16
    let declared := fun s : State => (s.inByte 4).toNat * 256 + (s.inByte 5).toNat
    let proto := block 8 0x01 [0, 1, 1, 0, 0, 2, 1, 3]
    let unit := block 8 0x01 [0, 1, 0, 0, 0, 2, 2, 3]
    let long := block 8 0x01 [0, 1, 0, 0, 0, 3, 1, 3]
    let zero := block 8 0x01 [0, 1, 0, 0, 0, 0, 1, 3]
    let good := block 8 0x01 [0, 1, 0, 0, 0, 2, 1, 3]
    (sized 9).cfg.bufSize < (sized 9).inLen.toNat ∧ (sized 6).inLen.toNat < 7 ∧ p proto ≠ 0 ∧
    (p unit = 0 ∧ unit.inByte 6 ≠ unit.deviceId) ∧
    (p long = 0 ∧ long.inByte 6 = long.deviceId ∧ long.inLen.toNat < 6 + declared long) ∧
    (p zero = 0 ∧ zero.inByte 6 = zero.deviceId ∧ declared zero = 0) ∧
    (p good = 0 ∧ good.inByte 6 = good.deviceId ∧ 6 + declared good ≤ good.inLen.toNat ∧ declared good ≠ 0) := by
  decide
theorem witness_CommandsNeverWriteIntEnAndOnlySoftResetPending :
    ∃ t, exec .tcpWrap (latched 5) = .next t ∧ t.pending = 5 := ⟨_, rfl, rfl⟩
theorem witness_ControlAndCrcCommandsFrame : (∃ t, exec .nop (latched 0) = .next t) ∧
    (∃ t, exec .crcInit (latched 1) = .next t) ∧ ∃ t, exec .crcUpdate (sized 9) = .next t ∧ t.errCode ≠ .ok :=
  ⟨⟨_, rfl⟩, ⟨_, rfl⟩, _, rfl, by decide⟩
theorem witness_FramingCommandsFrame : (∃ t, exec .rtuWrap (sized 9) = .next t ∧ t.errCode ≠ .ok) ∧
    (∃ t, exec .rtuUnwrap (sized 3) = .next t ∧ t.errCode ≠ .ok) ∧
    (∃ t, exec .tcpWrap (sized 9) = .next t ∧ t.errCode ≠ .ok) ∧
    ∃ t, exec .tcpUnwrap (sized 3) = .next t ∧ t.errCode ≠ .ok :=
  ⟨⟨_, rfl, by decide⟩, ⟨_, rfl, by decide⟩, ⟨_, rfl, by decide⟩, _, rfl, by decide⟩
theorem witness_FailedCommandChangesOnlyItsReport : (latched 4).busy = true ∧
    (∃ t, engineTurn (latched 4) = .next t ∧ t.errCode ≠ .ok) ∧ ∃ t, engineTurn (latched 8) = .next t ∧ t.errCode ≠ .ok :=
  ⟨rfl, ⟨_, rfl, by decide⟩, _, rfl, by decide⟩
theorem witness_NoCommandReadsAResult :
    let u := { sized 3 with errCode := .crcMismatch, calcCrc := 0x1234, rxTxid := 7, outBuf := [(0, 9)], outLen := 1 }
    (sized 3).SameOperands u ∧ (∃ t, exec .rtuUnwrap (sized 3) = .next t) ∧ ∃ v, exec .rtuUnwrap u = .next v :=
  ⟨⟨rfl, rfl, rfl, rfl, rfl, rfl, rfl⟩, ⟨_, rfl⟩, _, rfl⟩
theorem witness_OnlyTcpWrapAdvancesTxid : (∃ t, step { sized 0 with busy := true, pending := 5 } = .next t ∧ t.txid ≠ 0) ∧
    ∃ t, step { sized 0 with txid := 3, inputs := [.hardReset] } = .next t ∧ t.txid ≠ 3 :=
  ⟨⟨_, rfl, by decide⟩, _, rfl, by decide⟩
theorem witness_KthTcpWrapEmitsK :
    let u := fun j : Nat => if j = 0 then sized 0 else after .tcpWrap (sized 0)
    (u 0).txid = 0 ∧ ∀ j, j < 1 → ∃ before : State, before.txid = (u j).txid ∧
      exec .tcpWrap before = .next (u (j + 1)) ∧ (u (j + 1)).errCode = .ok := by
  refine ⟨rfl, fun j hj => ⟨sized 0, ?_, ?_, ?_⟩⟩ <;> obtain rfl : j = 0 := by omega
  · rfl
  · rfl
  · decide
theorem witness_OnlyTheHostWritesIntEn :
    (∃ t, step { State.reset with inputs := [.access (wr 0x0010 3)] } = .next t ∧ t.intEn ≠ 0) ∧
    ∃ t, step { State.reset with intEn := 1, inputs := [.hardReset] } = .next t ∧ t.intEn ≠ 1 :=
  ⟨⟨_, rfl, by decide⟩, _, rfl, by decide⟩
theorem witness_OnlyTheHostWritesInBytes :
    (∃ t, step { sized 0 with inputs := [.access (wr 0x101C 3)] } = .next t ∧ t.inBuf.read 7 ≠ none) ∧
    ∃ t, step (latched 7) = .next t ∧ t.inBuf.read 0 ≠ (latched 7).inBuf.read 0 :=
  ⟨⟨_, rfl, by decide⟩, _, rfl, by decide⟩
theorem witness_OnlyFramingCommandsWriteOut :
    ∃ t, step { sized 1 with busy := true, pending := 3 } = .next t ∧ t.outLen ≠ (sized 1).outLen :=
  ⟨_, step_stepped (by decide +kernel), by decide +kernel⟩
theorem witness_OnlyNamedAgentsWriteSessionRegisters :
    (∃ t, step { State.reset with inputs := [.access (wr 0x0008 3)] } = .next t ∧ t.pending ≠ 0) ∧
    (∃ t, step (latched 7) = .next t ∧ t.pending ≠ 7) ∧
    (∃ t, step { State.reset with inputs := [.access (wr 0x0014 3)] } = .next t ∧ t.deviceId ≠ 0) ∧
    (∃ t, step { State.reset with inputs := [.access (wr 0x0018 3)] } = .next t ∧ t.inLen ≠ 0) ∧
    (∃ t, step { State.reset with inputs := [.access (wr 0x0020 3)] } = .next t ∧ t.crcAcc ≠ 0xFFFF) ∧
    (∃ t, step { sized 0 with busy := true, pending := 3 } = .next t ∧ t.calcCrc ≠ 0) ∧
    ∃ t, step { block 260 0x01 frameTW1 with busy := true, pending := 6 } = .next t ∧ t.rxTxid ≠ 0 :=
  ⟨⟨_, rfl, by decide⟩, ⟨_, rfl, by decide⟩, ⟨_, rfl, by decide⟩, ⟨_, rfl, by decide⟩, ⟨_, rfl, by decide⟩,
    ⟨_, step_stepped (by decide +kernel), by decide +kernel⟩,
    _, step_stepped (by decide +kernel), by decide +kernel⟩
/-- The first and the last bit of the shortest good frame. -/
theorem witness_RtuUnwrapDetectsEverySingleBitError :
    let s := block 8 0x01 [0x01, 0x07, 0x41, 0xE2]
    let u := block 8 0x01 [0x00, 0x07, 0x41, 0xE2]
    let v := block 8 0x01 [0x01, 0x07, 0x41, 0x62]
    (after .rtuUnwrap s).errCode = .ok ∧ u.inLen = s.inLen ∧ v.inLen = s.inLen ∧
    u.inByte 0 = s.inByte 0 ^^^ BitVec.ofNat 8 (2 ^ 0) ∧ (∀ i : Fin 4, i.val ≠ 0 → u.inByte i = s.inByte i) ∧
    v.inByte 3 = s.inByte 3 ^^^ BitVec.ofNat 8 (2 ^ 7) ∧ (∀ i : Fin 4, i.val ≠ 3 → v.inByte i = s.inByte i) := by
  decide +kernel
theorem witness_RtuRoundTrip :
    let s := block 8 0x01 [0x07]
    let t := after .rtuWrap s
    let u := { t with inBuf := t.outBuf, inLen := t.outLen }
    s.cfg.legal ∧ s.inLen.toNat + 3 ≤ s.cfg.bufSize ∧ u.cfg = t.cfg ∧ u.deviceId = t.deviceId ∧ u.inLen = t.outLen ∧
    (∀ j : Fin 4, u.inBuf.read j = t.outBuf.read j) ∧ t.outLen.toNat = 4 := by decide +kernel
/-- The empty PDU. -/
theorem witness_RtuRoundTrip_empty :
    let s := sized 0
    let t := after .rtuWrap s
    let u := { t with inBuf := t.outBuf, inLen := t.outLen }
    s.cfg.legal ∧ s.inLen.toNat = 0 ∧ s.inLen.toNat + 3 ≤ s.cfg.bufSize ∧ u.cfg = t.cfg ∧ u.deviceId = t.deviceId ∧
    u.inLen = t.outLen ∧ (∀ j : Fin 3, u.inBuf.read j = t.outBuf.read j) ∧ t.outLen.toNat = 3 := by decide +kernel
theorem witness_TcpRoundTrip :
    let s := block 8 0x01 [0x03]
    let t := after .tcpWrap s
    let u := { t with inBuf := t.outBuf, inLen := t.outLen }
    s.cfg.legal ∧ s.inLen.toNat + 7 ≤ s.cfg.bufSize ∧ u.cfg = t.cfg ∧ u.deviceId = t.deviceId ∧ u.inLen = t.outLen ∧
    u.txid = t.txid ∧ (∀ j : Fin 8, u.inBuf.read j = t.outBuf.read j) ∧ t.outLen.toNat = 8 := by decide +kernel
/-- The empty PDU. -/
theorem witness_TcpRoundTrip_empty :
    let s := sized 0
    let t := after .tcpWrap s
    let u := { t with inBuf := t.outBuf, inLen := t.outLen }
    s.cfg.legal ∧ s.inLen.toNat = 0 ∧ s.inLen.toNat + 7 ≤ s.cfg.bufSize ∧ u.cfg = t.cfg ∧ u.deviceId = t.deviceId ∧
    u.inLen = t.outLen ∧ u.txid = t.txid ∧ (∀ j : Fin 7, u.inBuf.read j = t.outBuf.read j) ∧
    t.outLen.toNat = 7 := by decide +kernel
theorem witness_SoftResetReachesTheResetState : ∃ t, exec .softReset (latched 7) = .next t := ⟨_, rfl⟩
theorem witness_HardResetAbandonsTheCommand :
    { latched 5 with inputs := [.hardReset, .quiet] }.inputs = .hardReset :: [.quiet] := by decide
theorem witness_OnlyAlignedWordAccessesAreAccepted :
    (Access.mk 0x0014 1 (.write 5)).size ≠ 4 ∧ (Access.mk 0x0016 4 (.write 5)).offset.toNat % 4 ≠ 0 := by
  decide
/-- The ends of the reserved ranges: 0x0038, 0x0FFC, the first words at BUF_SIZE, 0x1FFC and 0x3FFC. -/
theorem witness_IdleReadsReturnTheTabledValues : (sized 0).busy = false ∧ (sized 0).cfg.legal ∧
    (0x101C : Offset).toNat = 0x1000 + 4 * 7 ∧ (0x201C : Offset).toNat = 0x2000 + 4 * 7 ∧
    (∀ off ∈ ([0x0038, 0x0FFC] : List Offset), off.toNat % 4 = 0 ∧ 0x0038 ≤ off.toNat ∧ off.toNat < 0x1000) ∧
    (∀ off ∈ ([0x1020, 0x1FFC] : List Offset), off.toNat % 4 = 0 ∧ 0x1000 + 4 * 8 ≤ off.toNat ∧ off.toNat < 0x2000) ∧
    (∀ off ∈ ([0x2020, 0x3FFC] : List Offset), off.toNat % 4 = 0 ∧ 0x2000 + 4 * 8 ≤ off.toNat) := by
  simp [sized, block, State.resetWith, Config.legal]
theorem witness_IdleWriteEffects : (sized 0).busy = false ∧ (sized 0).cfg.legal ∧
    (∀ off ∈ ([0x0008, 0x000C, 0x0010, 0x0014, 0x0018, 0x0020, 0x101C, 0x0000, 0x0034, 0x0038, 0x0FFC, 0x1020, 0x3FFC] :
      List Offset), off.toNat % 4 = 0) ∧
    (0x101C : Offset).toNat = 0x1000 + 4 * 7 ∧ 0x1000 + 4 * (sized 0).cfg.bufSize ≤ (0x1020 : Offset).toNat := by
  simp [sized, block, State.resetWith, Config.legal]
theorem witness_ReadAfterWriteReturnsTheWritableBits : (sized 0).busy = false ∧ 7 < (sized 0).cfg.bufSize ∧
    (0x101C : Offset) = BitVec.ofNat 14 (0x1000 + 4 * 7) := by decide
theorem witness_BusyWriteOnlySetsWerr : (latched 5).busy = true ∧ (0x0008 : Offset).toNat % 4 = 0 ∧
    (0x3FFC : Offset).toNat % 4 = 0 := by decide
theorem witness_AcceptedWritesAreAcknowledged : (0x0000 : Offset).toNat % 4 = 0 ∧ (rd 0x3FFC).size = 4 ∧
    (rd 0x3FFC).offset.toNat % 4 = 0 := by decide
theorem witness_BusyReadsReturnOnlyFourRegisters : (latched 5).busy = true ∧
    (0x0010 : Offset).toNat % 4 = 0 ∧ (0x0008 : Offset) ∉ ([0x0000, 0x0004, 0x000C, 0x0010] : List Offset) := by decide
theorem witness_BusyAccessLeavesTheCommandAlone : (latched 7).busy = true ∧
    ((latched 7).busAccess (wr 0x0014 2)).werr = true := by decide
theorem witness_IrqLevelAndClearing : { State.reset with done := true, werr := true, intEn := 3 }.busy = false ∧
    { State.reset with done := true, werr := true, intEn := 3 }.irq = true := by decide
theorem witness_CmdWriteLatchesAndStarts : State.reset.busy = false ∧ (latched 5).busy = true := by decide
theorem witness_WaitPollsUntilIdle :
    let h : HostThread := { prog := cmdStmts .nop ++ waitStmts 0 0 ++ ackStmts, pc := 1, vars := [], todo := [] }
    h.prog = cmdStmts .nop ++ waitStmts 0 0 ++ ackStmts ∧ Stmt.label 0 ∉ cmdStmts .nop ∧
    h.pc = (cmdStmts .nop).length ∧ h.todo = [] ∧ (latched 0).busy = true ∧ State.reset.busy = false := by decide
theorem witness_LoadInFillsTheInput :
    let bytes : List Byte := [1, 2, 3, 4, 5, 6, 7, 8]
    let h : HostThread := { prog := setDevStmts 1 ++ loadInStmts bytes ++ ackStmts, pc := 1, vars := [], todo := [] }
    (sized 0).cfg.legal ∧ (sized 0).busy = false ∧ bytes.length ≤ (sized 0).cfg.bufSize ∧
    h.prog = setDevStmts 1 ++ loadInStmts bytes ++ ackStmts ∧ h.pc = (setDevStmts 1).length ∧ h.todo = [] := by decide
theorem witness_WaitEndsOnceTheEngineHasMoved :
    let h : HostThread := { prog := cmdStmts .nop ++ waitStmts 0 0 ++ ackStmts, pc := 1, vars := [], todo := [] }
    h.prog = cmdStmts .nop ++ waitStmts 0 0 ++ ackStmts ∧ Stmt.label 0 ∉ cmdStmts .nop ∧
    h.pc = (cmdStmts .nop).length ∧ h.todo = [] ∧ 4 ≤ (List.replicate 4 Agent.host).count .host := by decide

/-- BUF_SIZE = 8 with two bytes in OUT. -/
def filled : State := (sized 0).putOut [0x06, 0x34]

theorem filled_outBufFilled : filled.OutBufFilled := by
  refine ⟨by decide, by decide, fun i => ?_⟩
  have hl : filled.outLen.toNat = 2 := rfl
  rw [hl, show filled.outBuf = Memory.ofBytes 0 [0x06, 0x34] from rfl, Memory.read_ofBytes_zero]
  simp

theorem witness_ReadOutReadsTheOutput :
    let h : HostThread := { prog := ackStmts ++ readOutStmts 0 1 ++ ackStmts, pc := 1, vars := [], todo := [] }
    filled.cfg.legal ∧ filled.OutBufFilled ∧ filled.busy = false ∧ 0 < 1 ∧
    h.prog = ackStmts ++ readOutStmts 0 1 ++ ackStmts ∧ h.pc = ackStmts.length ∧ h.todo = [] :=
  ⟨by decide, filled_outBufFilled, rfl, by decide, rfl, rfl, rfl⟩
theorem witness_CopyOutMovesTheOutput :
    let h : HostThread := { prog := ackStmts ++ copyOutStmts 0 1 ++ ackStmts, pc := 1, vars := [], todo := [] }
    filled.cfg.legal ∧ filled.OutBufFilled ∧ filled.busy = false ∧ 0 < 1 ∧
    h.prog = ackStmts ++ copyOutStmts 0 1 ++ ackStmts ∧ h.pc = ackStmts.length ∧ h.todo = [] :=
  ⟨by decide, filled_outBufFilled, rfl, by decide, rfl, rfl, rfl⟩
/-- `READOUT` queues as many reads as OUT_LEN says (R101). -/
theorem test_readOut_expansion :
    (hostStmt { prog := readOutStmts 0 1, pc := 0, vars := [], todo := [] } filled).map (fun p => (p.1.todo, p.1.vars)) =
      some ([.rd 1 (.outByte 0), .rd 2 (.outByte 1)], [(0, 2)]) := by decide
/-- `COPYOUT` queues as many reads and writes, and the write of the length (R101). -/
theorem test_copyOut_expansion :
    (hostStmt { prog := copyOutStmts 0 1, pc := 0, vars := [], todo := [] } filled).map (fun p => p.1.todo) =
      some [.rd 1 (.outByte 0), .rd 2 (.outByte 1), .wr (.inByte 0) (.var 1), .wr (.inByte 1) (.var 2),
        .wr (.reg .inLen) (.var 0)] := by decide

end Sys2Proof.Tests
end

section
/-! The reset state of a legal configuration meets the invariant (spec/00_scope.md R7, spec/10_state.md R50). -/

namespace Sys2Proof.Machine

/-- IN_BUF is all ⊥ after reset. -/
theorem State.resetWith_inBufCanonical (c : Config) : (State.resetWith c).InBufCanonical :=
  ⟨List.Pairwise.nil, List.forall_mem_nil _⟩

/-- After reset OUT_LEN is 0, and no byte of OUT_BUF is specified. -/
theorem State.resetWith_outBufFilled (c : Config) : (State.resetWith c).OutBufFilled := by
  refine ⟨List.Pairwise.nil, ?_, fun i => ?_⟩
  · exact Nat.zero_le c.bufSize
  · simp [State.resetWith]

theorem State.resetWith_busyExcludesDone (c : Config) : (State.resetWith c).BusyExcludesDone := by
  simp [State.BusyExcludesDone, State.resetWith]

/-- After reset ERRCODE is OK, so both ERR_INFO registers must be 0. -/
theorem State.resetWith_errInfoTruthful (c : Config) : (State.resetWith c).ErrInfoTruthful :=
  ⟨rfl, rfl⟩

theorem State.resetWith_inv {c : Config} (hc : c.legal) : (State.resetWith c).Inv :=
  ⟨hc, resetWith_inBufCanonical c, resetWith_outBufFilled c, resetWith_busyExcludesDone c,
    resetWith_errInfoTruthful c⟩

theorem Config.default_legal : Config.default.legal := by decide

/-- Settles O2: the parts of the invariant hold after reset for every configuration, and the default 260 is legal. -/
theorem resetMeetsTheInvariant : Obligations.ResetMeetsTheInvariant :=
  ⟨rfl, State.resetWith_inv Config.default_legal, fun _ => State.resetWith_inv⟩

end Sys2Proof.Machine
end

section
/-! What a completion may report: ERR_INFO0 and ERR_INFO1 of each result code (spec/30_encoding.md R96). -/

namespace Sys2Proof.Machine

/-- Completing `s` with this report tells the truth, if the configuration is legal. -/
def State.MayReport (s : State) (code : ErrCode) (info0 info1 : Word) : Prop :=
  s.cfg.legal → (s.complete code info0 info1).ErrInfoTruthful

theorem toNat_infoOf {n : Nat} (h : n < 2 ^ 32) : (infoOf n).toNat = n := by
  rw [infoOf, BitVec.toNat_ofNat, Nat.mod_eq_of_lt h]

theorem toNat_zext32 {n : Nat} (h : n ≤ 32) (v : BitVec n) : (zext32 v).toNat = v.toNat :=
  BitVec.toNat_setWidth_of_le h

theorem zext32_ne {n : Nat} (hn : n ≤ 32) {v w : BitVec n} (h : v ≠ w) : zext32 v ≠ zext32 w := by
  intro he
  have := congrArg BitVec.toNat he
  rw [toNat_zext32 hn, toNat_zext32 hn] at this
  exact h (BitVec.eq_of_toNat_eq this)

theorem zext32_lt {n : Nat} (h : n ≤ 32) (v : BitVec n) : (zext32 v).toNat < 2 ^ n :=
  toNat_zext32 h v ▸ v.isLt

section
variable (s : State)

theorem State.mayReport_ok : s.MayReport .ok 0 0 := fun _ => ⟨rfl, rfl⟩

theorem State.mayReport_bufferOverflow {n : Nat} (hn : s.cfg.bufSize < n) (hlt : n < 2 ^ 32) :
    s.MayReport .bufferOverflow (infoOf s.cfg.bufSize) (infoOf n) := by
  intro _
  refine ⟨toNat_infoOf (hn.trans hlt), ?_⟩
  rwa [State.complete_errInfo1, toNat_infoOf hlt]

theorem State.mayReport_frameTooShort {k n : Nat} (hn : n < k) (hmin : 4 ≤ k) (hmax : k ≤ 65541) :
    s.MayReport .frameTooShort (infoOf k) (infoOf n) := by
  intro _
  simp only [State.ErrInfoTruthful, State.complete_errCode, State.complete_errInfo0, State.complete_errInfo1]
  rw [toNat_infoOf (by omega), toNat_infoOf (by omega)]
  exact ⟨hn, hmin, hmax⟩

theorem State.mayReport_unitIdMismatch {expected found : Byte} (h : found ≠ expected) :
    s.MayReport .unitIdMismatch (zext32 expected) (zext32 found) := fun _ =>
  ⟨(zext32_ne (by decide) h).symm, zext32_lt (by decide) _, zext32_lt (by decide) _⟩

theorem State.mayReport_crcMismatch {expected found : Half} (h : expected ≠ found) :
    s.MayReport .crcMismatch (zext32 expected) (zext32 found) := fun _ =>
  ⟨zext32_ne (by decide) h, zext32_lt (by decide) _, zext32_lt (by decide) _⟩

theorem State.mayReport_invalidProtocolId {found : Half} (h : found ≠ 0) :
    s.MayReport .invalidProtocolId 0 (zext32 found) := fun _ =>
  ⟨rfl, zext32_ne (by decide) h, zext32_lt (by decide) _⟩

theorem State.mayReport_mbapLengthZero : s.MayReport .mbapLengthZero (infoOf 1) (infoOf 0) := fun _ => ⟨rfl, rfl⟩

theorem decodeOp_eq_illegal {op : Nat} {why : IllegalWord} (h : decodeOp op = .illegal why) : 8 ≤ op := by
  by_contra hlt
  have hop : op < 8 := by omega
  interval_cases op <;> cases h

/-- The decoder rejects only words that R93 calls illegal. -/
theorem commandWordLegal_of_decode_illegal {w : Word} {why : IllegalWord} (h : decode w = .illegal why) :
    commandWordLegal w = false := by
  unfold decode at h
  split at h
  · next hbits =>
    have hrsvd : reservedBitsZero w = false := beq_false_of_ne hbits
    rw [commandWordLegal, hrsvd, Bool.false_and]
  · have hop : opAssigned w = false := decide_eq_false (Nat.not_lt.2 (decodeOp_eq_illegal h))
    rw [commandWordLegal, hop, Bool.and_false]

theorem State.mayReport_illegalCommand {w : Word} {why : IllegalWord} (h : decode w = .illegal why) :
    s.MayReport .illegalCommand 0 w := fun _ => ⟨rfl, commandWordLegal_of_decode_illegal h⟩

end

end Sys2Proof.Machine
end

section
/-! Everything a command can do: one case per way of completing, with the whole next state. -/

namespace Sys2Proof.Machine

/-- The four framing commands (spec/41_rtu.md, spec/42_tcp_mbap.md). -/
def framingCommands : List Instr := [.rtuWrap, .rtuUnwrap, .tcpWrap, .tcpUnwrap]

/-- What SOFT_RESET leaves before it completes (spec/43_control.md R186). -/
def State.softCleared (s : State) : State :=
  { s with
    pending := 0, deviceId := 0x00, inLen := 0, outLen := 0, crcAcc := 0xFFFF, calcCrc := 0, txid := 0, rxTxid := 0,
    werr := false, inBuf := [], outBuf := [] }

/-- `CommandOutcome s i t`: command `i` may take `s` to `t`. -/
inductive CommandOutcome (s : State) : Instr → State → Prop where
  /-- nothing but the report: NOP, and the overflow of CRC_UPDATE -/
  | reported {i : Instr} (hi : i ∈ [.nop, .crcUpdate]) {code : ErrCode} {info0 info1 : Word}
      (hr : s.MayReport code info0 info1) : CommandOutcome s i (s.complete code info0 info1)
  /-- the standalone accumulator's commands (spec/40_crc.md R125, R126) -/
  | accumulated {i : Instr} (hi : i ∈ [.crcInit, .crcUpdate]) (crc : Half) :
      CommandOutcome s i ({ s with crcAcc := crc }.complete .ok 0 0)
  /-- a framing command fails before it has a CRC to post -/
  | failed {i : Instr} (hi : i ∈ framingCommands) {code : ErrCode} (hc : code ≠ .ok) {info0 info1 : Word}
      (hr : s.MayReport code info0 info1) : CommandOutcome s i (s.failOut code info0 info1)
  /-- RTU_UNWRAP fails its CRC check, which posts the CRC it computed (spec/41_rtu.md R144) -/
  | crcFailed {expected found : Half} (hne : expected ≠ found) :
      CommandOutcome s .rtuUnwrap
        ({ s with calcCrc := expected }.failOut .crcMismatch (zext32 expected) (zext32 found))
  | rtuOutput {i : Instr} (hi : i ∈ [.rtuWrap, .rtuUnwrap]) {bytes : List Byte} (hb : bytes.length ≤ s.cfg.bufSize)
      (crc : Half) : CommandOutcome s i ({ s.putOut bytes with calcCrc := crc }.complete .ok 0 0)
  | tcpWrapped {bytes : List Byte} (hb : bytes.length ≤ s.cfg.bufSize) :
      CommandOutcome s .tcpWrap ({ s.putOut bytes with txid := s.txid + 1 }.complete .ok 0 0)
  | tcpUnwrapped {bytes : List Byte} (hb : bytes.length ≤ s.cfg.bufSize) (id : Half) :
      CommandOutcome s .tcpUnwrap ({ s.putOut bytes with rxTxid := id }.complete .ok 0 0)
  | cleared : CommandOutcome s .softReset (s.softCleared.complete .ok 0 0)

section
variable {s t : State}

theorem execCrcUpdate_outcome (h : execCrcUpdate s = .next t) : CommandOutcome s .crcUpdate t := by
  have hlen := s.inLen.isLt
  simp only [execCrcUpdate] at h
  split at h
  · next hbig => cases h; exact .reported (by decide) (s.mayReport_bufferOverflow hbig (by omega))
  · cases h; exact .accumulated (by decide) _

theorem execRtuWrap_outcome (h : execRtuWrap s = .next t) : CommandOutcome s .rtuWrap t := by
  have hlen := s.inLen.isLt
  simp only [execRtuWrap] at h
  split at h
  · next hbig => cases h; exact .failed (by decide) (by decide) (s.mayReport_bufferOverflow hbig (by omega))
  split at h
  · next hbig => cases h; exact .failed (by decide) (by decide) (s.mayReport_bufferOverflow hbig (by omega))
  · cases h
    exact .rtuOutput (by decide) (by simp [rtuFrame]; omega) _

theorem execRtuUnwrap_outcome (h : execRtuUnwrap s = .next t) : CommandOutcome s .rtuUnwrap t := by
  have hlen := s.inLen.isLt
  simp only [execRtuUnwrap] at h
  split at h
  · next hbig => cases h; exact .failed (by decide) (by decide) (s.mayReport_bufferOverflow hbig (by omega))
  split at h
  · next hshort =>
    cases h
    exact .failed (by decide) (by decide) (s.mayReport_frameTooShort hshort (by decide) (by decide))
  split at h
  · next hunit => cases h; exact .failed (by decide) (by decide) (s.mayReport_unitIdMismatch hunit)
  split at h
  · next hcrc => cases h; exact .crcFailed hcrc
  · cases h
    exact .rtuOutput (by decide) (by rw [State.length_inSlice]; omega) _

theorem execTcpWrap_outcome (h : execTcpWrap s = .next t) : CommandOutcome s .tcpWrap t := by
  have hlen := s.inLen.isLt
  simp only [execTcpWrap] at h
  split at h
  · next hbig => cases h; exact .failed (by decide) (by decide) (s.mayReport_bufferOverflow hbig (by omega))
  split at h
  · next hbig => cases h; exact .failed (by decide) (by decide) (s.mayReport_bufferOverflow hbig (by omega))
  · cases h
    exact .tcpWrapped (by simp [tcpFrame]; omega)

theorem execTcpUnwrap_outcome (h : execTcpUnwrap s = .next t) : CommandOutcome s .tcpUnwrap t := by
  have hlen := s.inLen.isLt
  have hdeclared := (halfOf (s.inByte 4) (s.inByte 5)).isLt
  simp only [execTcpUnwrap] at h
  split at h
  · next hbig => cases h; exact .failed (by decide) (by decide) (s.mayReport_bufferOverflow hbig (by omega))
  split at h
  · next hshort =>
    cases h
    exact .failed (by decide) (by decide) (s.mayReport_frameTooShort hshort (by decide) (by decide))
  split at h
  · next hprotocol => cases h; exact .failed (by decide) (by decide) (s.mayReport_invalidProtocolId hprotocol)
  split at h
  · next hunit => cases h; exact .failed (by decide) (by decide) (s.mayReport_unitIdMismatch hunit)
  split at h
  · next hshort =>
    cases h
    exact .failed (by decide) (by decide) (s.mayReport_frameTooShort hshort (by omega) (by omega))
  split at h
  · cases h; exact .failed (by decide) (by decide) s.mayReport_mbapLengthZero
  · cases h
    exact .tcpUnwrapped (by rw [State.length_inSlice]; omega) _

/-- Every command that answers a next state does one of the things of `CommandOutcome`. -/
theorem exec_outcome {i : Instr} (h : exec i s = .next t) : CommandOutcome s i t := by
  cases i with
  | nop => cases h; exact .reported (by decide) s.mayReport_ok
  | crcInit => cases h; exact .accumulated (by decide) crcInitial
  | crcUpdate => exact execCrcUpdate_outcome h
  | rtuWrap => exact execRtuWrap_outcome h
  | rtuUnwrap => exact execRtuUnwrap_outcome h
  | tcpWrap => exact execTcpWrap_outcome h
  | tcpUnwrap => exact execTcpUnwrap_outcome h
  | softReset => cases h; exact .cleared

end

/-- Settles O21: no way of completing touches INT_EN or the model's own fields, and only the soft reset touches
PENDING. -/
theorem commandsNeverWriteIntEnAndOnlySoftResetPending :
    Obligations.CommandsNeverWriteIntEnAndOnlySoftResetPending := by
  intro i s t h
  cases exec_outcome h with
  | cleared => exact ⟨rfl, fun hi => absurd rfl hi, rfl, rfl, rfl, rfl⟩
  | _ => exact ⟨rfl, fun _ => rfl, rfl, rfl, rfl, rfl⟩

end Sys2Proof.Machine
end

section
/-! Everything a step can do: the engine's, the host's and the platform's ways to move, each with the whole next
state. -/

namespace Sys2Proof.Machine

/-- `WriteOutcome s off v u`: an accepted idle write of `v` at `off` may take `s` to `u` (spec/20_memory.md R63). -/
inductive WriteOutcome (s : State) : Offset → Word → State → Prop where
  | ignored {off : Offset} {v : Word} : WriteOutcome s off v s
  | cmd {v : Word} : WriteOutcome s 0x0008 v (s.latch v)
  | status {v : Word} : WriteOutcome s 0x000C v (s.writeStatus v)
  | intEn {v : Word} : WriteOutcome s 0x0010 v { s with intEn := v.extractLsb' 0 2 }
  | deviceId {v : Word} : WriteOutcome s 0x0014 v { s with deviceId := v.extractLsb' 0 8 }
  | inLen {v : Word} : WriteOutcome s 0x0018 v { s with inLen := v.extractLsb' 0 16 }
  | crcAcc {v : Word} : WriteOutcome s 0x0020 v { s with crcAcc := v.extractLsb' 0 16 }
  | inByte {off : Offset} {v : Word} {i : Nat} (hi : i < s.cfg.bufSize) (hoff : off.toNat = 0x1000 + 4 * i) :
      WriteOutcome s off v { s with inBuf := s.inBuf.write i (v.extractLsb' 0 8) }

theorem writeReg_outcome (s : State) (r : Reg) (v : Word) : WriteOutcome s r.offset v (s.writeReg r v) := by
  cases r with
  | cmd => exact .cmd
  | status => exact .status
  | intEn => exact .intEn
  | deviceId => exact .deviceId
  | inLen => exact .inLen
  | crcAcc => exact .crcAcc
  | _ => exact .ignored

theorem writeIdle_outcome (s : State) {off : Offset} (hoff : off.toNat % 4 = 0) (v : Word) :
    WriteOutcome s off v (s.writeIdle (locate s.cfg.bufSize off) v) := by
  cases hl : locate s.cfg.bufSize off with
  | reg r => rw [locate_eq_reg hl]; exact writeReg_outcome s r v
  | inWord i =>
    obtain ⟨hlt, hi, hlo, -⟩ := locate_eq_inWord hl
    exact .inByte hlt (by omega)
  | outWord i => exact .ignored
  | reserved => exact .ignored

/-- `StepOutcome s t`: a step may take `s` to `t`. -/
inductive StepOutcome (s : State) : State → Prop where
  /-- nothing moves but the slot: an idle engine -/
  | idle (rest : List Input) : StepOutcome s (State.tick { s with inputs := rest })
  /-- the engine performs a command -/
  | command (hm : s.EngineMoves) {i : Instr} (hd : decode s.pending = .instr i) {rest : List Input} {u : State}
      (hu : CommandOutcome { s with inputs := rest } i u) : StepOutcome s u.tick
  /-- the engine performs an illegal word -/
  | illegal (hm : s.EngineMoves) {why : IllegalWord} (hd : decode s.pending = .illegal why) (rest : List Input) :
      StepOutcome s (State.tick ({ s with inputs := rest }.complete .illegalCommand 0 s.pending))
  /-- an access that writes no register or buffer: a bus error, a read, a dropped write -/
  | noWrite (rest : List Input) (werr : Bool) (response : Option Response) :
      StepOutcome s (State.tick { s with inputs := rest, werr := werr, response := response })
  /-- an accepted write while BUSY = 0 -/
  | write {off : Offset} {v : Word} (hw : s.HostWrites off v) {rest : List Input} {u : State}
      (hu : WriteOutcome { s with inputs := rest } off v u) :
      StepOutcome s (State.tick { u with response := some .ack })
  | hardReset (hr : s.HardResets) (rest : List Input) :
      StepOutcome s (State.tick (State.hardReset { s with inputs := rest }))

section
variable {s u : State} {rest : List Input}

/-- The engine's slot is an explicit quiet one, or the end of the inputs. -/
theorem engineTurn_outcome (hin : s.inputs = .quiet :: rest ∨ s.inputs = [] ∧ rest = [])
    (h : engineTurn { s with inputs := rest } = .next u) : StepOutcome s u.tick := by
  cases hb : s.busy with
  | false =>
    rw [engineTurn_of_idle (s := { s with inputs := rest }) hb] at h
    cases h
    exact .idle rest
  | true =>
    have hm : s.EngineMoves := ⟨hb, hin.elim (fun hq => .inr ⟨rest, hq⟩) fun hnil => .inl hnil.1⟩
    rw [engineTurn_of_busy (s := { s with inputs := rest }) hb] at h
    rcases performPending_cases h with ⟨i, hd, hexec⟩ | ⟨why, hd, rfl⟩
    · exact .command hm hd (exec_outcome hexec)
    · exact .illegal hm hd rest

theorem Access.accepted_iff {a : Access} : a.accepted = true ↔ a.size = 4 ∧ a.offset.toNat % 4 = 0 := by
  simp [Access.accepted]

theorem busAccess_outcome {a : Access} (hin : s.inputs = .access a :: rest) :
    StepOutcome s (State.tick (State.busAccess { s with inputs := rest } a)) := by
  rcases busAccess_cases { s with inputs := rest } a with
    ⟨-, hu⟩ | ⟨-, -, hu⟩ | ⟨v, -, -, -, hu⟩ | ⟨v, hacc, hop, hb, hu⟩ <;> rw [hu]
  · exact .noWrite rest s.werr _
  · exact .noWrite rest s.werr _
  · exact .noWrite rest true _
  · obtain ⟨off, size, op⟩ := a
    obtain ⟨rfl, haligned⟩ := Access.accepted_iff.1 hacc
    obtain rfl : op = .write v := hop
    have hw : s.HostWrites off v := ⟨hb, rest, hin⟩
    exact .write hw (writeIdle_outcome { s with inputs := rest } haligned v)

end

/-- Every step that answers a next state does one of the things of `StepOutcome`. -/
theorem step_outcome {s t : State} (h : step s = .next t) : StepOutcome s t := by
  obtain ⟨u, hu, rfl⟩ := step_eq_next.1 h
  rcases turn_cases s with ⟨rest, hin, hturn⟩ | ⟨a, rest, hin, hturn⟩ | ⟨rest, hin, hturn⟩ <;> rw [hturn] at hu
  · exact engineTurn_outcome hin hu
  · cases hu
    exact busAccess_outcome hin
  · cases hu
    exact .hardReset ⟨rest, hin⟩ rest

end Sys2Proof.Machine
end

section
/-! Every step keeps the invariant (spec/10_state.md R25, R31, R37, R38; spec/30_encoding.md R96). -/

namespace Sys2Proof.Machine

theorem Memory.wf_nil : Memory.wf [] := List.Pairwise.nil

/-- An output of at most BUF_SIZE bytes fills OUT exactly to its length. -/
theorem State.putOut_outBufFilled {s : State} (hc : s.cfg.legal) {bytes : List Byte}
    (hb : bytes.length ≤ s.cfg.bufSize) : (s.putOut bytes).OutBufFilled := by
  obtain ⟨-, hmax⟩ := hc
  have hlen : (s.putOut bytes).outLen.toNat = bytes.length := by
    rw [State.putOut_outLen, BitVec.toNat_ofNat, Nat.mod_eq_of_lt (by omega)]
  refine ⟨Memory.wf_ofBytes 0 bytes, by rwa [hlen], fun i => ?_⟩
  rw [hlen, State.putOut_outBuf, Memory.read_ofBytes_zero]
  simp

/-- With OUT_LEN = 0 and no byte specified, OUT is filled. -/
theorem State.outBufFilled_of_empty {s : State} (hb : s.outBuf = []) (hl : s.outLen = 0) : s.OutBufFilled := by
  simp [State.OutBufFilled, Memory.wf_nil, hb, hl]

theorem State.inBufCanonical_of_empty {s : State} (hb : s.inBuf = []) : s.InBufCanonical := by
  simp [State.InBufCanonical, Memory.wf_nil, hb]

theorem State.busyExcludesDone_of_idle {s : State} (hb : s.busy = false) : s.BusyExcludesDone := by
  simp [State.BusyExcludesDone, hb]

theorem State.complete_inv {s : State} {code : ErrCode} {info0 info1 : Word} (hc : s.cfg.legal)
    (hin : s.InBufCanonical) (hout : s.OutBufFilled) (hr : s.MayReport code info0 info1) :
    (s.complete code info0 info1).Inv :=
  ⟨hc, hin, hout, State.busyExcludesDone_of_idle rfl, hr hc⟩

theorem State.failOut_inv {s : State} {code : ErrCode} {info0 info1 : Word} (hc : s.cfg.legal)
    (hin : s.InBufCanonical) (hr : s.MayReport code info0 info1) : (s.failOut code info0 info1).Inv :=
  State.complete_inv hc hin (State.outBufFilled_of_empty rfl rfl) hr

theorem CommandOutcome.inv {s t : State} {i : Instr} (h : CommandOutcome s i t) (hs : s.Inv) : t.Inv := by
  obtain ⟨hc, hin, hout, -, -⟩ := hs
  cases h with
  | reported _ hr => exact State.complete_inv hc hin hout hr
  | accumulated _ crc => exact State.complete_inv hc hin hout (State.mayReport_ok _)
  | failed _ _ hr => exact State.failOut_inv hc hin hr
  | crcFailed hne => exact State.failOut_inv hc hin (State.mayReport_crcMismatch _ hne)
  | rtuOutput _ hb crc =>
    exact State.complete_inv hc hin (State.putOut_outBufFilled hc hb) (State.mayReport_ok _)
  | tcpWrapped hb => exact State.complete_inv hc hin (State.putOut_outBufFilled hc hb) (State.mayReport_ok _)
  | tcpUnwrapped hb id => exact State.complete_inv hc hin (State.putOut_outBufFilled hc hb) (State.mayReport_ok _)
  | cleared =>
    exact State.complete_inv hc (State.inBufCanonical_of_empty rfl) (State.outBufFilled_of_empty rfl rfl)
      (State.mayReport_ok _)

/-- BUSY = 0 is what lets a STATUS write leave DONE without care, and a CMD write clears DONE as it sets BUSY. -/
theorem WriteOutcome.inv {s u : State} {off : Offset} {v : Word} (h : WriteOutcome s off v u) (hb : s.busy = false)
    (hs : s.Inv) : u.Inv := by
  obtain ⟨hc, hin, hout, hexcl, htruth⟩ := hs
  cases h with
  | cmd => exact ⟨hc, hin, hout, fun hbd => Bool.false_ne_true hbd.2, htruth⟩
  | status => exact ⟨hc, hin, hout, State.busyExcludesDone_of_idle hb, htruth⟩
  | inByte hi _ =>
    obtain ⟨hwf, hbelow⟩ := hin
    exact ⟨hc, ⟨Memory.wf_write _ _ hwf, Memory.below_write hbelow hi⟩, hout, hexcl, htruth⟩
  | _ => exact ⟨hc, hin, hout, hexcl, htruth⟩

theorem State.hardReset_inv {s : State} (hc : s.cfg.legal) : s.hardReset.Inv := State.resetWith_inv hc

theorem StepOutcome.inv {s t : State} (h : StepOutcome s t) (hs : s.Inv) : t.Inv := by
  have ⟨hc, hin, hout, _, _⟩ := hs
  cases h with
  | idle rest => exact hs
  | command _ _ hu => exact hu.inv hs
  | illegal _ hd rest => exact State.complete_inv hc hin hout (State.mayReport_illegalCommand _ hd)
  | noWrite rest werr response => exact hs
  | write hw hu => exact hu.inv hw.1 hs
  | hardReset _ rest => exact State.hardReset_inv hc

/-- Settles O3: each way a step can move keeps the invariant. -/
theorem stepKeepsTheInvariant : Obligations.StepKeepsTheInvariant := fun _ _ hs h => (step_outcome h).inv hs

end Sys2Proof.Machine
end

section
/-! Who writes what (spec/10_state.md R40): which commands and which host writes change each register and buffer, and
so which steps do. -/

namespace Sys2Proof.Machine

section
variable {s t : State} {i : Instr}

theorem CommandOutcome.intEn_eq (h : CommandOutcome s i t) : t.intEn = s.intEn := by cases h <;> rfl

/-- What the host sets up, no command but SOFT_RESET changes. -/
theorem CommandOutcome.keeps_hostSetup (h : CommandOutcome s i t) (hi : i ≠ .softReset) :
    t.pending = s.pending ∧ t.deviceId = s.deviceId ∧ t.inLen = s.inLen := by
  cases h with
  | cleared => exact absurd rfl hi
  | _ => exact ⟨rfl, rfl, rfl⟩

theorem CommandOutcome.writes_inBuf (h : CommandOutcome s i t) (hne : t.inBuf ≠ s.inBuf) :
    i = .softReset ∧ t.inBuf = [] := by
  cases h with
  | cleared => exact ⟨rfl, rfl⟩
  | _ => exact absurd rfl hne

theorem CommandOutcome.writes_crcAcc (h : CommandOutcome s i t) (hne : t.crcAcc ≠ s.crcAcc) :
    i ∈ [.crcInit, .crcUpdate] ∨ i = .softReset := by
  cases h with
  | accumulated hi crc => exact .inl hi
  | cleared => exact .inr rfl
  | _ => exact absurd rfl hne

theorem CommandOutcome.writes_calcCrc (h : CommandOutcome s i t) (hne : t.calcCrc ≠ s.calcCrc) :
    i ∈ [.rtuWrap, .rtuUnwrap] ∨ i = .softReset := by
  cases h with
  | crcFailed _ => exact .inl (by decide)
  | rtuOutput hi _ crc => exact .inl hi
  | cleared => exact .inr rfl
  | _ => exact absurd rfl hne

theorem CommandOutcome.writes_txid (h : CommandOutcome s i t) (hne : t.txid ≠ s.txid) :
    (i = .tcpWrap ∧ t.errCode = .ok ∧ t.txid = s.txid + 1) ∨ (i = .softReset ∧ t.txid = 0) := by
  cases h with
  | tcpWrapped _ => exact .inl ⟨rfl, rfl, rfl⟩
  | cleared => exact .inr ⟨rfl, rfl⟩
  | _ => exact absurd rfl hne

theorem CommandOutcome.writes_rxTxid (h : CommandOutcome s i t) (hne : t.rxTxid ≠ s.rxTxid) :
    (i = .tcpUnwrap ∧ t.errCode = .ok) ∨ i = .softReset := by
  cases h with
  | tcpUnwrapped _ id => exact .inl ⟨rfl, rfl⟩
  | cleared => exact .inr rfl
  | _ => exact absurd rfl hne

theorem CommandOutcome.writes_out (h : CommandOutcome s i t) (hne : t.outBuf ≠ s.outBuf ∨ t.outLen ≠ s.outLen) :
    i ∈ framingCommands ++ [.softReset] := by
  cases h with
  | reported _ _ => simp at hne
  | accumulated _ crc => simp at hne
  | failed hi _ _ => exact List.mem_append_left _ hi
  | rtuOutput hi _ crc => exact List.mem_append_left [.tcpWrap, .tcpUnwrap, .softReset] hi
  | _ => decide

end

section
variable {s u : State} {off : Offset} {v : Word}

/-- No host write reaches the results of the commands (spec/20_memory.md R63). -/
theorem WriteOutcome.keeps_results (h : WriteOutcome s off v u) :
    u.outBuf = s.outBuf ∧ u.outLen = s.outLen ∧ u.calcCrc = s.calcCrc ∧ u.txid = s.txid ∧ u.rxTxid = s.rxTxid := by
  cases h <;> exact ⟨rfl, rfl, rfl, rfl, rfl⟩

theorem WriteOutcome.writes_pending (h : WriteOutcome s off v u) (hne : u.pending ≠ s.pending) :
    off = 0x0008 ∧ u.pending = v := by
  cases h with
  | cmd => exact ⟨rfl, rfl⟩
  | _ => exact absurd rfl hne

theorem WriteOutcome.writes_intEn (h : WriteOutcome s off v u) (hne : u.intEn ≠ s.intEn) :
    off = 0x0010 ∧ u.intEn = v.extractLsb' 0 2 := by
  cases h with
  | intEn => exact ⟨rfl, rfl⟩
  | _ => exact absurd rfl hne

theorem WriteOutcome.writes_deviceId (h : WriteOutcome s off v u) (hne : u.deviceId ≠ s.deviceId) :
    off = 0x0014 ∧ u.deviceId = v.extractLsb' 0 8 := by
  cases h with
  | deviceId => exact ⟨rfl, rfl⟩
  | _ => exact absurd rfl hne

theorem WriteOutcome.writes_inLen (h : WriteOutcome s off v u) (hne : u.inLen ≠ s.inLen) :
    off = 0x0018 ∧ u.inLen = v.extractLsb' 0 16 := by
  cases h with
  | inLen => exact ⟨rfl, rfl⟩
  | _ => exact absurd rfl hne

theorem WriteOutcome.writes_crcAcc (h : WriteOutcome s off v u) (hne : u.crcAcc ≠ s.crcAcc) :
    off = 0x0020 ∧ u.crcAcc = v.extractLsb' 0 16 := by
  cases h with
  | crcAcc => exact ⟨rfl, rfl⟩
  | _ => exact absurd rfl hne

theorem WriteOutcome.writes_inByte {i : Nat} (h : WriteOutcome s off v u)
    (hne : u.inBuf.read i ≠ s.inBuf.read i) :
    i < s.cfg.bufSize ∧ off.toNat = 0x1000 + 4 * i ∧ u.inBuf.read i = some (v.extractLsb' 0 8) := by
  cases h with
  | @inByte _ _ k hk hoff =>
    obtain rfl : i = k := by_contra fun hik => hne (Memory.read_write_other _ _ hik)
    exact ⟨hk, hoff, Memory.read_write_same _ _ _⟩
  | _ => exact absurd rfl hne

end

/-- Settles O26: of the commands only TCP_WRAP's success and the soft reset move TXID, and no host write does. -/
theorem onlyTcpWrapAdvancesTxid : Obligations.OnlyTcpWrapAdvancesTxid := by
  intro s t h hne
  cases step_outcome h with
  | command hm hd hu =>
    rcases hu.writes_txid hne with ⟨rfl, hok, hid⟩ | ⟨rfl, hid⟩
    · exact .inl ⟨hm, hd, hok, hid⟩
    · exact .inr ⟨hid, .inr ⟨hm, hd⟩⟩
  | write _ hu =>
    obtain ⟨-, -, -, htxid, -⟩ := hu.keeps_results
    exact absurd htxid hne
  | hardReset hr rest => exact .inr ⟨rfl, .inl hr⟩
  | _ => exact absurd rfl hne

/-- Settles O28: no command writes INT_EN. -/
theorem onlyTheHostWritesIntEn : Obligations.OnlyTheHostWritesIntEn := by
  intro s t h hne
  cases step_outcome h with
  | command _ _ hu => exact absurd hu.intEn_eq hne
  | write hw hu =>
    obtain ⟨rfl, hv⟩ := hu.writes_intEn hne
    exact .inl ⟨_, hw, hv⟩
  | hardReset hr rest => exact .inr ⟨hr, rfl⟩
  | _ => exact absurd rfl hne

/-- Settles O29: a write changes no byte but its own, and a command that changes IN_BUF empties it. -/
theorem onlyTheHostWritesInBytes : Obligations.OnlyTheHostWritesInBytes := by
  intro s t i h hne
  cases step_outcome h with
  | command hm hd hu =>
    obtain ⟨rfl, hempty⟩ := hu.writes_inBuf (mt (congrArg (Memory.read · i)) hne)
    exact .inr ⟨congrArg (Memory.read · i) hempty, .inr ⟨hm, hd⟩⟩
  | write hw hu =>
    obtain ⟨hi, hoff, hv⟩ := hu.writes_inByte hne
    exact .inl ⟨_, _, hi, hw, hoff, hv⟩
  | hardReset hr rest => exact .inr ⟨rfl, .inl hr⟩
  | _ => exact absurd rfl hne

/-- Settles O30: of the commands only the framing ones and the soft reset write OUT, and no host write does. -/
theorem onlyFramingCommandsWriteOut : Obligations.OnlyFramingCommandsWriteOut := by
  intro s t h hne
  cases step_outcome h with
  | command hm hd hu => exact .inr ⟨hm, hd ▸ List.mem_map_of_mem (hu.writes_out hne)⟩
  | write _ hu =>
    obtain ⟨hbuf, hlen, -⟩ := hu.keeps_results
    exact absurd hne (not_or_intro (not_not_intro hbuf) (not_not_intro hlen))
  | hardReset hr rest => exact .inl hr
  | _ => exact absurd hne (not_or_intro (not_not_intro rfl) (not_not_intro rfl))

/-- Settles O31: unless the step resets the block, register by register from what a command and a host write can do. -/
theorem onlyNamedAgentsWriteSessionRegisters : Obligations.OnlyNamedAgentsWriteSessionRegisters := by
  intro s t h cleared
  by_cases hc : cleared
  · exact ⟨fun _ => .inr hc, fun _ => .inr hc, fun _ => .inr hc, fun _ => .inr (.inr hc), fun _ => .inr hc,
      fun _ => .inr hc⟩
  cases step_outcome h with
  | @command hm i hd _ _ hu =>
    have hi : i ≠ .softReset := fun hi => hc (.inr ⟨hm, hi ▸ hd⟩)
    have hmem {is : List Instr} (h : i ∈ is) : decode s.pending ∈ is.map .instr := hd ▸ List.mem_map_of_mem h
    obtain ⟨hpending, hdevice, hlen⟩ := hu.keeps_hostSetup hi
    refine ⟨absurd hpending, absurd hdevice, absurd hlen, fun hne => .inr (.inl ⟨hm, ?_⟩), fun hne => .inl ⟨hm, ?_⟩,
      fun hne => .inl ⟨hm, ?_⟩⟩
    · exact hmem ((hu.writes_crcAcc hne).resolve_right hi)
    · exact hmem ((hu.writes_calcCrc hne).resolve_right hi)
    · obtain ⟨rfl, hok⟩ := (hu.writes_rxTxid hne).resolve_right hi
      exact ⟨hd, hok⟩
  | write hw hu =>
    obtain ⟨-, -, hcalc, -, hrx⟩ := hu.keeps_results
    refine ⟨fun hne => .inl ?_, fun hne => .inl ?_, fun hne => .inl ?_, fun hne => .inl ?_, absurd hcalc, absurd hrx⟩
    · obtain ⟨rfl, hv⟩ := hu.writes_pending hne
      exact ⟨_, hw, hv⟩
    · obtain ⟨rfl, hv⟩ := hu.writes_deviceId hne
      exact ⟨_, hw, hv⟩
    · obtain ⟨rfl, hv⟩ := hu.writes_inLen hne
      exact ⟨_, hw, hv⟩
    · obtain ⟨rfl, hv⟩ := hu.writes_crcAcc hne
      exact ⟨_, hw, hv⟩
  | hardReset hr rest => exact absurd (.inl hr) hc
  | _ => exact ⟨absurd rfl, absurd rfl, absurd rfl, absurd rfl, absurd rfl, absurd rfl⟩

end Sys2Proof.Machine
end

section
/-! Reading back what an idle write wrote (spec/20_memory.md R62, R63). -/

namespace Sys2Proof.Machine

/-- The low `n` bits of a word, as a register of `n` bits reads back. -/
theorem zext32_extractLsb' (v : Word) {n : Nat} (hn : n ≤ 32) :
    zext32 (v.extractLsb' 0 n) = v &&& BitVec.ofNat 32 (2 ^ n - 1) := by
  have hpow : 2 ^ n ≤ 2 ^ 32 := Nat.pow_le_pow_right (by decide) hn
  apply BitVec.eq_of_toNat_eq
  rw [toNat_zext32 hn, BitVec.toNat_and, BitVec.toNat_ofNat, Nat.mod_eq_of_lt (by omega : 2 ^ n - 1 < 2 ^ 32),
    Nat.and_two_pow_sub_one_eq_mod]
  simp

section
variable {s : State} (v : Word)

theorem State.hostRead_of_idle (hb : s.busy = false) (off : Offset) :
    s.hostRead off = s.readIdle (locate s.cfg.bufSize off) := by
  simp [State.hostRead, hb]

theorem State.hostWrite_of_idle (hb : s.busy = false) (off : Offset) :
    s.hostWrite off v = s.writeIdle (locate s.cfg.bufSize off) v := by
  simp [State.hostWrite, hb]

/-- The answer to a read right after a write at the same target. -/
theorem response_read_after_write (s : State) (t : Target) :
    ((s.busAccess (writeAccess t v)).busAccess (readAccess t)).response =
      some (.data ((s.hostWrite t.offset v).hostRead t.offset)) := by
  rw [busAccess_writeAccess, busAccess_readAccess]
  rfl

/-- What a register reads back, if the write to it leaves the block idle. -/
theorem hostRead_after_write_reg (hb : s.busy = false) {r : Reg} (hb' : (s.writeReg r v).busy = false) :
    (s.hostWrite r.offset v).hostRead r.offset = (s.writeReg r v).readReg r := by
  rw [State.hostWrite_of_idle v hb, locate_reg, State.writeIdle, State.hostRead_of_idle hb', locate_reg, State.readIdle]

theorem hostRead_after_write_inWord (hb : s.busy = false) {i : Nat} (hi : i < s.cfg.bufSize) (hmax : i < 1024) :
    (s.hostWrite (Target.inByte i).offset v).hostRead (Target.inByte i).offset = zext32 (v.extractLsb' 0 8) := by
  have hloc : locate s.cfg.bufSize (Target.inByte i).offset = .inWord i := by
    rw [Target.offset, locate_inWord hmax, if_pos hi]
  rw [State.hostWrite_of_idle v hb, hloc, State.hostRead_of_idle (by exact hb)]
  simp only [State.writeIdle, hloc, State.readIdle]
  rw [State.inByte_of_read (Memory.read_write_same _ _ _)]

end

/-- Settles O42: each written register or byte holds the low bits of the word, and reads back zero-extended. -/
theorem readAfterWriteReturnsTheWritableBits : Obligations.ReadAfterWriteReturnsTheWritableBits := by
  intro s off v hb t
  have hreg (r : Reg) (hb' : (s.writeReg r v).busy = false) (hoff : off = r.offset) {w : Word}
      (hw : (s.writeReg r v).readReg r = w) : t.response = some (.data w) := by
    subst hoff
    rw [← hw, ← hostRead_after_write_reg v hb hb']
    exact response_read_after_write v s (.reg r)
  refine ⟨fun h => ?_, fun h => ?_, ?_, fun i hi hmax h => ?_⟩
  · exact hreg .intEn hb h (zext32_extractLsb' v (by decide : 2 ≤ 32))
  · exact hreg .deviceId hb h (zext32_extractLsb' v (by decide : 8 ≤ 32))
  · rintro (h | h)
    · exact hreg .inLen hb h (zext32_extractLsb' v (by decide : 16 ≤ 32))
    · exact hreg .crcAcc hb h (zext32_extractLsb' v (by decide : 16 ≤ 32))
  · subst h
    have hread := response_read_after_write v s (.inByte i)
    rw [hostRead_after_write_inWord v hb hi hmax, zext32_extractLsb' v (by decide)] at hread
    exact hread

end Sys2Proof.Machine
end

section
/-! The STATUS word's fields and the reset table (spec/10_state.md R25, R26, R50). -/

namespace Sys2Proof.Machine

theorem ErrCode.number_eq_zero {e : ErrCode} : e.number = 0 ↔ e = .ok := by cases e <;> decide

/-- ERR is computed from ERRCODE (spec/10_state.md R26). -/
theorem State.err_iff {s : State} : s.err = true ↔ s.errCode ≠ .ok := by
  rw [State.err, bne_iff_ne, ne_eq, ErrCode.number_eq_zero]

section
variable (s : State)

/-- The one-bit fields of STATUS. -/
theorem State.statusWord_bits :
    s.statusWord.getLsbD 0 = s.busy ∧ s.statusWord.getLsbD 1 = s.done ∧ s.statusWord.getLsbD 2 = s.err ∧
    s.statusWord.getLsbD 3 = false ∧ s.statusWord.getLsbD 8 = s.werr := by
  simp only [State.statusWord, BitVec.getLsbD_append]
  simp

theorem State.statusWord_errCode : s.statusWord.extractLsb' 4 4 = s.errCode.number := by
  apply BitVec.eq_of_getLsbD_eq
  intro k hk
  simp only [State.statusWord, BitVec.getLsbD_extractLsb', BitVec.getLsbD_append]
  simp [hk]

theorem State.statusWord_reserved : s.statusWord.extractLsb' 9 23 = 0 := by
  apply BitVec.eq_of_getLsbD_eq
  intro k hk
  have hcode : ¬5 + k < 4 := by omega
  have hwerr : 5 + k - 4 ≠ 0 := by omega
  simp only [State.statusWord, BitVec.getLsbD_extractLsb', BitVec.getLsbD_append]
  simp [hk, hcode, hwerr]

end

/-- Settles O47: the fields by their places in the word, and ERR by the codes' numbers. -/
theorem statusWordFields : Obligations.StatusWordFields := by
  refine ⟨fun s e => ?_, fun s => State.err_iff, fun s => ?_⟩
  · rw [State.statusWord_errCode]
    cases e <;> rfl
  · obtain ⟨hbusy, hdone, herr, hzero, hwerr⟩ := s.statusWord_bits
    rw [herr]
    exact ⟨hbusy, hdone, State.err_iff, by rw [State.err, bne_iff_ne], hzero, s.statusWord_errCode, hwerr,
      s.statusWord_reserved⟩

/-- Settles O1: the reset state's fields, row by row. -/
theorem resetHoldsTheTabledValues : Obligations.ResetHoldsTheTabledValues := fun _ =>
  ⟨rfl, rfl, rfl, rfl, rfl, rfl, rfl, rfl, rfl, rfl, rfl, rfl, rfl, rfl, rfl, rfl, fun _ => ⟨rfl, rfl⟩, rfl⟩

end Sys2Proof.Machine
end

section
/-! What each kind of access does: refused, a read, a write; with BUSY = 0 and with BUSY = 1 (spec/20_memory.md R61 to
R65, R68). -/

namespace Sys2Proof.Machine

section
variable (s : State) {off : Offset} (v : Word)

/-- An accepted read answers its value and changes nothing else. -/
theorem busAccess_read (hoff : off.toNat % 4 = 0) :
    s.busAccess { offset := off, size := 4, op := .read } = { s with response := some (.data (s.hostRead off)) } :=
  if_pos (Access.accepted_iff.2 ⟨rfl, hoff⟩)

/-- An accepted write does what `hostWrite` says, and is acknowledged. -/
theorem busAccess_write (hoff : off.toNat % 4 = 0) :
    s.busAccess { offset := off, size := 4, op := .write v } = { s.hostWrite off v with response := some .ack } :=
  if_pos (Access.accepted_iff.2 ⟨rfl, hoff⟩)

end

/-- Settles O39: the bus accepts exactly the aligned accesses of 4 bytes. -/
theorem onlyAlignedWordAccessesAreAccepted : Obligations.OnlyAlignedWordAccessesAreAccepted := by
  intro s a hbad
  have hrefused : ¬a.accepted = true := by
    rw [Access.accepted_iff]
    omega
  exact if_neg hrefused

/-- Settles O44: an accepted access is a read, which gets data, or a write, which gets an acknowledgement. -/
theorem acceptedWritesAreAcknowledged : Obligations.AcceptedWritesAreAcknowledged := by
  constructor
  · rintro s ⟨off, size, op⟩ rfl hoff
    cases op with
    | read => simp [busAccess_read s hoff]
    | write v => simp [busAccess_write s v hoff]
  · intro s off v hoff
    rw [busAccess_write s v hoff]

/-- Settles O43: while BUSY = 1 `hostWrite` only sets WERR. -/
theorem busyWriteOnlySetsWerr : Obligations.BusyWriteOnlySetsWerr := by
  intro s off v hb hoff
  have hdrop : s.hostWrite off v = { s with werr := true } := if_pos hb
  rw [busAccess_write s v hoff, hdrop]

/-! ### The map of the window, offset by offset (spec/10_state.md R21) -/

theorem Reg.offset_lt (r : Reg) : r.offset.toNat < 0x0038 := by cases r <;> decide

theorem Reg.offset_aligned (r : Reg) : r.offset.toNat % 4 = 0 := (Target.reg r).offset_aligned

theorem regAt_eq_none {n : Nat} (h : 0x0038 ≤ n) : regAt n = none := by
  rw [Option.eq_none_iff_forall_ne_some]
  intro r hr
  have hn := regAt_eq_some hr
  have hlt := r.offset_lt
  omega

section
variable {n i : Nat} {off : Offset}

theorem locate_eq_inWord_of_toNat (hn : n ≤ 1024) (hi : i < n) (hoff : off.toNat = 0x1000 + 4 * i) :
    locate n off = .inWord i := by
  have hmax : i < 1024 := by omega
  have hword : off = BitVec.ofNat 14 (0x1000 + 4 * i) := BitVec.eq_of_toNat_eq (hoff.trans (toNat_inOffset hmax).symm)
  rw [hword, locate_inWord hmax, if_pos hi]

theorem locate_eq_outWord_of_toNat (hn : n ≤ 1024) (hi : i < n) (hoff : off.toNat = 0x2000 + 4 * i) :
    locate n off = .outWord i := by
  have hmax : i < 1024 := by omega
  have hword : off = BitVec.ofNat 14 (0x2000 + 4 * i) := BitVec.eq_of_toNat_eq (hoff.trans (toNat_outOffset hmax).symm)
  rw [hword, locate_outWord hmax, if_pos hi]

/-- The reserved offsets: after the registers, and after each buffer's BUF_SIZE words. -/
theorem locate_eq_reserved
    (h : 0x0038 ≤ off.toNat ∧ off.toNat < 0x1000 ∨ 0x1000 + 4 * n ≤ off.toNat ∧ off.toNat < 0x2000 ∨
      0x2000 + 4 * n ≤ off.toNat) : locate n off = .reserved := by
  simp only [locate]
  rcases h with ⟨hlo, hhi⟩ | ⟨hlo, hhi⟩ | hlo
  · rw [if_pos hhi, regAt_eq_none hlo]
  · rw [if_neg (by omega), if_pos hhi, if_neg (by omega)]
  · rw [if_neg (by omega), if_neg (by omega), if_neg (by omega : ¬(off.toNat - 0x2000) / 4 < n), ite_self]

end

/-! ### Accesses while BUSY = 0 -/

/-- An unspecified byte may be any byte; a specified one reads as itself. -/
theorem eq_none_or_eq_some_getD {α : Type} (o : Option α) (d : α) : o = none ∨ o = some (o.getD d) := by
  cases o with
  | none => exact .inl rfl
  | some b => exact .inr rfl

/-- Settles O40: `locate` finds what stands at each offset, and the read returns its value. -/
theorem idleReadsReturnTheTabledValues : Obligations.IdleReadsReturnTheTabledValues := by
  rintro s hb ⟨-, hmax⟩ returns
  have hread {off : Offset} {l : Loc} (hoff : off.toNat % 4 = 0) (hl : locate s.cfg.bufSize off = l) :
      returns off (s.readIdle l) := by
    subst hl
    rw [← State.hostRead_of_idle hb]
    exact busAccess_read s hoff
  have hreg (r : Reg) : returns r.offset (s.readReg r) := hread r.offset_aligned (locate_reg _ r)
  refine ⟨⟨hreg .id, hreg .param, hreg .cmd, hreg .status, hreg .intEn, hreg .deviceId, hreg .inLen, hreg .outLen,
    hreg .crcAcc, hreg .calcCrc, hreg .txid, hreg .rxTxid, hreg .errInfo0, hreg .errInfo1⟩, ?_, ?_, ?_⟩
  · intro off i hi hoff
    exact ⟨s.inByte i, hread (by omega) (locate_eq_inWord_of_toNat hmax hi hoff), eq_none_or_eq_some_getD _ _⟩
  · intro off i hi hoff
    exact ⟨s.outByte i, hread (by omega) (locate_eq_outWord_of_toNat hmax hi hoff), eq_none_or_eq_some_getD _ _⟩
  · intro off hoff hreserved
    exact hread hoff (locate_eq_reserved hreserved)

/-- The registers that ignore every write (spec/20_memory.md R63). -/
def readOnlyRegs : List Reg := [.id, .param, .outLen, .calcCrc, .txid, .rxTxid, .errInfo0, .errInfo1]

theorem State.writeReg_of_readOnly (s : State) (v : Word) {r : Reg} (hr : r ∈ readOnlyRegs) : s.writeReg r v = s := by
  cases r with
  | cmd | status | intEn | deviceId | inLen | crcAcc => exact absurd hr (by decide)
  | _ => rfl

/-- Past the registers, only the IN words below BUF_SIZE take a write. -/
theorem State.writeIdle_of_ignored (s : State) (v : Word) {off : Offset}
    (h : 0x0038 ≤ off.toNat ∧ off.toNat < 0x1000 ∨ 0x1000 + 4 * s.cfg.bufSize ≤ off.toNat) :
    s.writeIdle (locate s.cfg.bufSize off) v = s := by
  cases hl : locate s.cfg.bufSize off with
  | reg r =>
    obtain rfl := locate_eq_reg hl
    have hlt := r.offset_lt
    omega
  | inWord i =>
    obtain ⟨hi, hword, hlo, hhi⟩ := locate_eq_inWord hl
    omega
  | outWord i => rfl
  | reserved => rfl

/-- Settles O41: `locate` finds what stands at each offset, and `writeIdle` gives the write its effect there. -/
theorem idleWriteEffects : Obligations.IdleWriteEffects := by
  rintro s off v hb ⟨-, hmax⟩ hoff after
  have hwrite {t : State} (ht : s.writeIdle (locate s.cfg.bufSize off) v = t) : after t := by
    simp only [after, busAccess_write s v hoff, State.hostWrite_of_idle v hb, ht]
  have hreg (r : Reg) (hr : off = r.offset) : after (s.writeReg r v) := by
    subst hr
    exact hwrite (by rw [locate_reg, State.writeIdle])
  refine ⟨hreg .cmd, hreg .status, hreg .intEn, hreg .deviceId, hreg .inLen, hreg .crcAcc, ?_, ?_⟩
  · intro i hi hword
    exact ⟨_, hwrite (by rw [locate_eq_inWord_of_toNat hmax hi hword, State.writeIdle]), Memory.read_write_same _ _ _,
      fun j hj => Memory.read_write_other _ _ hj⟩
  · rintro (hro | hignored)
    · obtain ⟨r, hr, rfl⟩ : ∃ r ∈ readOnlyRegs, r.offset = off := List.mem_map.1 hro
      exact s.writeReg_of_readOnly v hr ▸ hreg r rfl
    · exact hwrite (s.writeIdle_of_ignored v hignored)

/-! ### Accesses while BUSY = 1 -/

/-- The registers that a read sees while BUSY = 1 (spec/20_memory.md R65). -/
def busyReadableRegs : List Reg := [.id, .param, .status, .intEn]

theorem Loc.readableBusy_reg {r : Reg} : (Loc.reg r).readableBusy = true ↔ r ∈ busyReadableRegs := by
  cases r <;> decide

theorem State.hostRead_of_busyReadable (s : State) {r : Reg} (hr : r ∈ busyReadableRegs) :
    s.hostRead r.offset = s.readReg r := by
  simp [State.hostRead, Loc.readableBusy_reg.2 hr, State.readIdle]

/-- At any other offset a busy read returns the step's free word. -/
theorem State.hostRead_of_busy {s : State} (hb : s.busy = true) {off : Offset}
    (hoff : off ∉ busyReadableRegs.map Reg.offset) : s.hostRead off = Config.freeWord s.draw := by
  have hhidden : (locate s.cfg.bufSize off).readableBusy = false := by
    cases hl : locate s.cfg.bufSize off with
    | reg r =>
      rw [← Bool.not_eq_true, Loc.readableBusy_reg]
      exact fun hr => hoff (locate_eq_reg hl ▸ List.mem_map_of_mem hr)
    | _ => rfl
  simp [State.hostRead, hb, hhidden]

/-- Settles O45: the four registers are found at their offsets, and nothing else is readable. -/
theorem busyReadsReturnOnlyFourRegisters : Obligations.BusyReadsReturnOnlyFourRegisters := by
  intro s off hb hoff returns
  have hreg {r : Reg} (hr : r ∈ busyReadableRegs) (hat : off = r.offset) : returns (s.readReg r) := by
    rw [← s.hostRead_of_busyReadable hr, ← hat]
    exact busAccess_read s hoff
  refine ⟨hreg (r := .id) (by decide), hreg (r := .param) (by decide), hreg (r := .status) (by decide),
    hreg (r := .intEn) (by decide), fun hother => ?_⟩
  rw [← State.hostRead_of_busy hb hother]
  exact busAccess_read s hoff

/-- The state with WERR and the bus response replaced: all that an access can do to a busy block. -/
def State.withBusTrace (s : State) (werr : Bool) (response : Option Response) : State :=
  { s with werr := werr, response := response }

theorem busAccess_of_busy {s : State} (hb : s.busy = true) (a : Access) :
    s.busAccess a = s.withBusTrace (s.busAccess a).werr (s.busAccess a).response := by
  rcases busAccess_cases s a with ⟨-, h⟩ | ⟨-, -, h⟩ | ⟨v, -, -, -, h⟩ | ⟨v, -, -, hidle, -⟩
  · rw [h, State.withBusTrace]
  · rw [h, State.withBusTrace]
  · rw [h, State.withBusTrace]
  · rw [hb] at hidle
    cases hidle

theorem mapNext_ite (f : State → State) (c : Prop) [Decidable c] (x y : Host.Outcome State Fault Refusal) :
    mapNext f (if c then x else y) = if c then mapNext f x else mapNext f y := apply_ite (mapNext f) c x y

/-- No command reads WERR or the bus response, and only SOFT_RESET writes one of them. -/
theorem exec_withBusTrace (i : Instr) (s : State) (werr : Bool) (response : Option Response) :
    exec i (s.withBusTrace werr response) =
      mapNext (fun t => t.withBusTrace (if i = .softReset then false else werr) response) (exec i s) := by
  cases i with
  | nop | crcInit | softReset => rfl
  | crcUpdate | rtuWrap | rtuUnwrap | tcpWrap | tcpUnwrap =>
    simp only [exec, execCrcUpdate, execRtuWrap, execRtuUnwrap, execTcpWrap, execTcpUnwrap, mapNext_ite]
    rfl

/-- Settles O46: an access leaves a busy block the same but for WERR and the response, which no command reads. -/
theorem busyAccessLeavesTheCommandAlone : Obligations.BusyAccessLeavesTheCommandAlone := by
  intro s a i hb
  have h := exec_withBusTrace i s (s.busAccess a).werr (s.busAccess a).response
  rwa [← busAccess_of_busy hb a] at h

end Sys2Proof.Machine
end

section
/-! The decoder and the encoder agree (spec/30_encoding.md R92 to R94). -/

namespace Sys2Proof.Machine

theorem roundTrip (i : Instr) : Laws.RoundTrip.Statement i :=
  match i with
  | .nop => Laws.RoundTrip.nop
  | .crcInit => Laws.RoundTrip.crcInit
  | .crcUpdate => Laws.RoundTrip.crcUpdate
  | .rtuWrap => Laws.RoundTrip.rtuWrap
  | .rtuUnwrap => Laws.RoundTrip.rtuUnwrap
  | .tcpWrap => Laws.RoundTrip.tcpWrap
  | .tcpUnwrap => Laws.RoundTrip.tcpUnwrap
  | .softReset => Laws.RoundTrip.softReset

theorem decode_encode (i : Instr) : decode (encode i) = .instr i := by
  obtain ⟨-, -, hdecode⟩ := roundTrip i
  exact hdecode

/-- OP names the command: each selector that decodes to a command is that command's. -/
theorem eq_encodeOp_of_decodeOp {op : Nat} {i : Instr} (h : decodeOp op = .instr i) : op = (encodeOp i).toNat := by
  unfold decodeOp at h
  split at h <;> cases h <;> rfl

/-- A command word is its reserved bits above its OP (R90). -/
theorem reserved_append_op (w : Word) : w.extractLsb' 4 28 ++ w.extractLsb' 0 4 = w := by
  calc w.extractLsb' 4 28 ++ w.extractLsb' 0 4
    _ = w.extractLsb' 0 (28 + 4) := BitVec.extractLsb'_append_extractLsb'_eq_extractLsb' rfl
    _ = w := BitVec.extractLsb'_eq_self

theorem eq_encode_of_decode {w : Word} {i : Instr} (h : decode w = .instr i) : w = encode i := by
  unfold decode at h
  split at h
  · cases h
  · next hrsvd =>
    have hop : w.extractLsb' 0 4 = encodeOp i := BitVec.eq_of_toNat_eq (eq_encodeOp_of_decodeOp h)
    rw [← reserved_append_op w, not_not.1 hrsvd, hop, encode]

theorem decode_eq_instr_iff {w : Word} {i : Instr} : decode w = .instr i ↔ w = encode i :=
  ⟨eq_encode_of_decode, fun h => h ▸ decode_encode i⟩

/-- The fields that make a word illegal (R93). -/
theorem fields_of_decode_illegal {w : Word} {why : IllegalWord} (h : decode w = .illegal why) :
    w.extractLsb' 4 28 ≠ 0 ∨ 8 ≤ (w.extractLsb' 0 4).toNat := by
  unfold decode at h
  split at h
  · next hrsvd => exact .inl hrsvd
  · exact .inr (decodeOp_eq_illegal h)

/-- No command's word has one of those fields. -/
theorem encode_fields_legal (i : Instr) :
    ¬((encode i).extractLsb' 4 28 ≠ 0 ∨ 8 ≤ ((encode i).extractLsb' 0 4).toNat) := by
  cases i <;> decide

theorem decode_illegal_iff {w : Word} :
    (∃ why, decode w = .illegal why) ↔ w.extractLsb' 4 28 ≠ 0 ∨ 8 ≤ (w.extractLsb' 0 4).toNat := by
  refine ⟨fun ⟨_, h⟩ => fields_of_decode_illegal h, fun hfields => ?_⟩
  cases hd : decode w with
  | instr i => exact absurd (eq_encode_of_decode hd ▸ hfields) (encode_fields_legal i)
  | illegal why => exact ⟨why, rfl⟩

/-- Settles O4: a word is its two fields, so the fields that decode to a command make up that command's word. -/
theorem decodeIsExactlyTheOpcodeMap : Obligations.DecodeIsExactlyTheOpcodeMap :=
  ⟨fun _ _ => decode_eq_instr_iff, by decide, fun _ => decode_illegal_iff⟩

/-- Settles O5: the first eight words are the commands' own; the others are evaluated. -/
theorem tabledWordsDecodeToTheirCommands : Obligations.TabledWordsDecodeToTheirCommands :=
  ⟨decode_encode .nop, decode_encode .crcInit, decode_encode .crcUpdate, decode_encode .rtuWrap,
    decode_encode .rtuUnwrap, decode_encode .tcpWrap, decode_encode .tcpUnwrap, decode_encode .softReset,
    by decide, by decide, by decide⟩

end Sys2Proof.Machine
end

section
/-! Every command completes, with one of its own result codes (spec/30_encoding.md R95, spec/43_control.md R181). -/

namespace Sys2Proof.Machine

/-- The outcome is a completion with one of `codes`. -/
def CompletesWith (codes : List ErrCode) (o : Host.Outcome State Fault Refusal) : Prop :=
  ∃ t, o = .next t ∧ t.busy = false ∧ t.done = true ∧ t.errCode ∈ codes

section
variable {codes : List ErrCode}

theorem completesWith_complete {code : ErrCode} (h : code ∈ codes) (s : State) (info0 info1 : Word) :
    CompletesWith codes (.next (s.complete code info0 info1)) :=
  ⟨_, rfl, rfl, rfl, h⟩

theorem completesWith_failOut {code : ErrCode} (h : code ∈ codes) (s : State) (info0 info1 : Word) :
    CompletesWith codes (.next (s.failOut code info0 info1)) :=
  completesWith_complete h _ info0 info1

end

section
variable (s : State)

theorem execCrcUpdate_completes : CompletesWith [.ok, .bufferOverflow] (execCrcUpdate s) := by
  simp only [execCrcUpdate]
  split
  · exact completesWith_complete (by decide) ..
  · exact completesWith_complete (by decide) ..

theorem execRtuWrap_completes : CompletesWith [.ok, .bufferOverflow] (execRtuWrap s) := by
  simp only [execRtuWrap]
  split
  · exact completesWith_failOut (by decide) ..
  split
  · exact completesWith_failOut (by decide) ..
  · exact completesWith_complete (by decide) ..

theorem execTcpWrap_completes : CompletesWith [.ok, .bufferOverflow] (execTcpWrap s) := by
  simp only [execTcpWrap]
  split
  · exact completesWith_failOut (by decide) ..
  split
  · exact completesWith_failOut (by decide) ..
  · exact completesWith_complete (by decide) ..

theorem execRtuUnwrap_completes :
    CompletesWith [.ok, .bufferOverflow, .frameTooShort, .unitIdMismatch, .crcMismatch] (execRtuUnwrap s) := by
  simp only [execRtuUnwrap]
  split
  · exact completesWith_failOut (by decide) ..
  split
  · exact completesWith_failOut (by decide) ..
  split
  · exact completesWith_failOut (by decide) ..
  split
  · exact completesWith_failOut (by decide) ..
  · exact completesWith_complete (by decide) ..

theorem execTcpUnwrap_completes :
    CompletesWith [.ok, .bufferOverflow, .frameTooShort, .invalidProtocolId, .unitIdMismatch, .mbapLengthZero]
      (execTcpUnwrap s) := by
  simp only [execTcpUnwrap]
  split
  · exact completesWith_failOut (by decide) ..
  split
  · exact completesWith_failOut (by decide) ..
  split
  · exact completesWith_failOut (by decide) ..
  split
  · exact completesWith_failOut (by decide) ..
  split
  · exact completesWith_failOut (by decide) ..
  split
  · exact completesWith_failOut (by decide) ..
  · exact completesWith_complete (by decide) ..

end

/-- Settles O20: every branch of every command ends in a completion, with a code of the command's row. -/
theorem everyCommandCompletesWithItsOwnCodes : Obligations.EveryCommandCompletesWithItsOwnCodes := by
  intro i s
  cases i with
  | nop | crcInit | softReset => exact completesWith_complete (by decide) ..
  | crcUpdate => exact execCrcUpdate_completes s
  | rtuWrap => exact execRtuWrap_completes s
  | rtuUnwrap => exact execRtuUnwrap_completes s
  | tcpWrap => exact execTcpWrap_completes s
  | tcpUnwrap => exact execTcpUnwrap_completes s

/-- Performing the latched word, legal or not, ends the command. -/
theorem performPending_completes (s : State) : ∃ t, performPending s = .next t ∧ t.busy = false ∧ t.done = true := by
  unfold performPending
  split
  · next i _ =>
    obtain ⟨t, ht, hbusy, hdone, -⟩ := everyCommandCompletesWithItsOwnCodes i s
    exact ⟨t, ht, hbusy, hdone⟩
  · exact ⟨_, rfl, rfl, rfl⟩

end Sys2Proof.Machine
end

section
/-! What the commands leave unchanged (spec/10_state.md R37, R38, R40; spec/30_encoding.md R91). -/

namespace Sys2Proof.Machine

section
variable {s t : State} {i : Instr}

/-- The commands that may end in nothing but the report. -/
theorem not_framing_of_reported : ∀ i ∈ [Instr.nop, .crcUpdate], i ∉ framingCommands := by decide

/-- The commands that may write CRC_ACC (spec/40_crc.md R125, R126). -/
theorem not_framing_of_accumulated : ∀ i ∈ [Instr.crcInit, .crcUpdate], i ∉ framingCommands := by decide

theorem framing_of_rtu : ∀ i ∈ [Instr.rtuWrap, .rtuUnwrap], i ∈ framingCommands := by decide

theorem CommandOutcome.keeps_werr (h : CommandOutcome s i t) (hi : i ≠ .softReset) : t.werr = s.werr := by
  cases h with
  | cleared => exact absurd rfl hi
  | _ => rfl

/-- CALC_CRC is written with the CRC that RTU_WRAP sends and RTU_UNWRAP compares (spec/10_state.md R35). -/
theorem CommandOutcome.writes_calcCrc_code (h : CommandOutcome s i t) (hne : t.calcCrc ≠ s.calcCrc) :
    t.errCode = .ok ∨ t.errCode = .crcMismatch := by
  cases h with
  | crcFailed _ => exact .inr rfl
  | rtuOutput _ _ crc => exact .inl rfl
  | cleared => exact .inl rfl
  | _ => exact absurd rfl hne

/-- A framing command leaves OUT specified exactly on OUT[0..OUT_LEN), whatever it was before. -/
theorem CommandOutcome.fills_out (h : CommandOutcome s i t) (hi : i ∈ framingCommands) (hc : s.cfg.legal) :
    t.OutBufFilled := by
  cases h with
  | reported hother _ => exact absurd hi (not_framing_of_reported i hother)
  | accumulated hother _ => exact absurd hi (not_framing_of_accumulated i hother)
  | failed _ _ _ => exact State.outBufFilled_of_empty rfl rfl
  | crcFailed _ => exact State.outBufFilled_of_empty rfl rfl
  | rtuOutput _ hb _ => exact State.putOut_outBufFilled hc hb
  | tcpWrapped hb => exact State.putOut_outBufFilled hc hb
  | tcpUnwrapped hb _ => exact State.putOut_outBufFilled hc hb
  | cleared => exact absurd hi (by decide)

/-- Past its length a filled OUT is unspecified. -/
theorem State.OutBufFilled.read_eq_none (h : s.OutBufFilled) {a : Nat} (ha : s.outLen.toNat ≤ a) :
    s.outBuf.read a = none := by
  obtain ⟨-, -, hfilled⟩ := h
  rw [← Option.not_isSome_iff_eq_none, hfilled]
  omega

end

/-- Settles O22: these three only report or accumulate; every other way to complete belongs to another command. -/
theorem controlAndCrcCommandsFrame : Obligations.ControlAndCrcCommandsFrame := by
  intro i s t hi h
  have hframing : i ∉ framingCommands := by rcases hi with rfl | rfl | rfl <;> decide
  cases exec_outcome h with
  | reported _ _ => exact ⟨rfl, rfl, rfl, rfl, rfl, rfl, rfl, rfl, rfl, fun _ => rfl, fun _ => rfl, fun _ => rfl⟩
  | accumulated hcrc crc =>
    refine ⟨rfl, rfl, rfl, rfl, rfl, rfl, rfl, rfl, rfl, ?_, fun _ => rfl, fun _ => rfl⟩
    rintro (rfl | hfailed)
    · exact absurd hcrc (by decide)
    · exact absurd rfl hfailed
  | failed hf _ _ => exact absurd hf hframing
  | rtuOutput hrtu _ crc => exact absurd (framing_of_rtu i hrtu) hframing
  | cleared => simp at hi
  | _ => exact absurd (by decide) hframing

/-- Settles O23: register by register from the commands that may write it, none of them the soft reset; OUT is filled
to its new length. -/
theorem framingCommandsFrame : Obligations.FramingCommandsFrame := by
  intro i s t hi h
  have hout := exec_outcome h
  have hframing : i ∈ framingCommands := by simpa [framingCommands] using hi
  have hreset : i ≠ .softReset := by rintro rfl; exact absurd hframing (by decide)
  obtain ⟨hpending, hdevice, hlen⟩ := hout.keeps_hostSetup hreset
  refine ⟨hout.keeps_werr hreset, hpending, hout.intEn_eq, hdevice, hlen, ?_, fun hcalc => ?_, fun htxid => ?_,
    fun hrx => ?_, fun a => ?_, fun hc a ha => (hout.fills_out hframing hc).read_eq_none ha⟩
  · by_contra hne
    exact not_framing_of_accumulated i ((hout.writes_crcAcc hne).resolve_right hreset) hframing
  · by_contra hne
    have hrtu := (hout.writes_calcCrc hne).resolve_right hreset
    rcases hcalc with rfl | rfl | ⟨hok, hcrc⟩
    · exact absurd hrtu (by decide)
    · exact absurd hrtu (by decide)
    · exact (hout.writes_calcCrc_code hne).elim hok hcrc
  · by_contra hne
    obtain ⟨rfl, hok, -⟩ := (hout.writes_txid hne).resolve_right fun hclear => hreset hclear.1
    exact htxid.elim (absurd rfl) (absurd hok)
  · by_contra hne
    obtain ⟨rfl, hok⟩ := (hout.writes_rxTxid hne).resolve_right hreset
    exact hrx.elim (absurd rfl) (absurd hok)
  · have hbuf : t.inBuf = s.inBuf := by_contra fun hne => hreset (hout.writes_inBuf hne).1
    rw [hbuf]

end Sys2Proof.Machine
end

section
/-! Where a host thread stands: the statements it runs next, and its place among a program's statements
(spec/30_encoding.md R100). -/

namespace Sys2Proof.Machine

/-- The statements the thread runs next, in order: the queued ones, then the program's. -/
def HostThread.upcoming (h : HostThread) : List Stmt := h.todo ++ h.prog.drop h.pc

section
variable {h : HostThread} {st : Stmt} {rest : List Stmt}

theorem HostThread.upcoming_of_prog (ht : h.todo = []) : h.upcoming = h.prog.drop h.pc := by
  rw [HostThread.upcoming, ht, List.nil_append]

theorem HostThread.current_of_upcoming (hu : h.upcoming = st :: rest) (hw : st.wellFormed = true) :
    h.current = some st := by
  cases ht : h.todo with
  | nil =>
    rw [HostThread.upcoming_of_prog ht] at hu
    exact HostThread.current_of_prog ht (by rw [← List.head?_drop, hu, List.head?_cons]) hw
  | cons a as =>
    rw [HostThread.upcoming, ht, List.cons_append] at hu
    obtain ⟨rfl, -⟩ := List.cons.inj hu
    exact HostThread.current_of_todo ht hw

theorem HostThread.upcoming_skip (hu : h.upcoming = st :: rest) : h.skip.upcoming = rest := by
  cases ht : h.todo with
  | nil =>
    rw [HostThread.upcoming_of_prog ht] at hu
    rw [HostThread.skip_of_prog ht]
    calc h.todo ++ h.prog.drop (h.pc + 1)
      _ = (h.prog.drop h.pc).tail := by rw [ht, List.nil_append, List.tail_drop]
      _ = rest := by rw [hu, List.tail_cons]
  | cons a as =>
    rw [HostThread.upcoming, ht, List.cons_append] at hu
    rw [HostThread.skip_of_todo ht]
    exact (List.cons.inj hu).2

@[simp] theorem HostThread.value_skip (h : HostThread) : h.skip.value = h.value := by
  funext w
  cases w with
  | num v => rfl
  | var x => exact h.lookup_skip x

theorem HostThread.skip_iterate_of_prog (ht : h.todo = []) (n : Nat) :
    HostThread.skip^[n] h = { h with pc := h.pc + n } := by
  induction n with
  | zero => rfl
  | succ n ih =>
    rw [Function.iterate_succ_apply', ih]
    exact HostThread.skip_of_prog (h := { h with pc := h.pc + n }) ht

theorem HostThread.skip_iterate_of_todo {more : List Stmt} (ht : h.todo = more ++ rest) :
    HostThread.skip^[more.length] h = { h with todo := rest } := by
  induction more generalizing h with
  | nil => rw [← ht.trans (List.nil_append rest)]; rfl
  | cons st more ih =>
    rw [List.length_cons, Function.iterate_succ_apply, HostThread.skip_of_todo ht]
    exact ih rfl

end

/-- The thread stands at statement `i` of `stmts`, which its program holds between `pre` and `post`. -/
structure HostThread.At (h : HostThread) (pre stmts post : List Stmt) (i : Nat) : Prop where
  prog : h.prog = pre ++ stmts ++ post
  todo : h.todo = []
  pc : h.pc = pre.length + i

section
variable {h : HostThread} {pre stmts post : List Stmt} {i : Nat}

theorem HostThread.At.current (ha : h.At pre stmts post i) {st : Stmt} (hst : stmts[i]? = some st)
    (hw : st.wellFormed = true) : h.current = some st := by
  obtain ⟨hi, -⟩ := List.getElem?_eq_some_iff.1 hst
  refine HostThread.current_of_prog ha.todo ?_ hw
  rw [ha.prog, ha.pc, List.append_assoc, List.getElem?_append_right (Nat.le_add_right ..), Nat.add_sub_cancel_left,
    List.getElem?_append_left hi, hst]

/-- At its first statement the thread has all of them before it. -/
theorem HostThread.At.upcoming (ha : h.At pre stmts post 0) : h.upcoming = stmts ++ post := by
  rw [HostThread.upcoming_of_prog ha.todo, ha.prog, ha.pc, Nat.add_zero, List.append_assoc, List.drop_left]

theorem HostThread.At.skip (ha : h.At pre stmts post i) : h.skip.At pre stmts post (i + 1) := by
  rw [HostThread.skip_of_prog ha.todo]
  exact ⟨ha.prog, ha.todo, congrArg (· + 1) ha.pc⟩

theorem HostThread.At.assign (ha : h.At pre stmts post i) (x : Var) (v : Word) :
    (h.assign x v).At pre stmts post (i + 1) :=
  ⟨ha.skip.prog, ha.skip.todo, ha.skip.pc⟩

end

end Sys2Proof.Machine
end

section
/-! The block but for the bus: what stays when only the response and the step number move. -/

namespace Sys2Proof.Machine

section
variable {s t u : State}

theorem State.SameBlock.congr {α : Type} (h : t.SameBlock s) (f : State → α) :
    f { t with response := none, draw := 0 } = f { s with response := none, draw := 0 } := congrArg f h

theorem State.SameBlock.refl (s : State) : s.SameBlock s := rfl

theorem State.SameBlock.trans (h : t.SameBlock s) (hu : u.SameBlock t) : u.SameBlock s := Eq.trans hu h

theorem State.SameBlock.busy_eq (h : t.SameBlock s) : t.busy = s.busy := h.congr State.busy

theorem State.SameBlock.cfg_eq (h : t.SameBlock s) : t.cfg = s.cfg := h.congr State.cfg

theorem State.SameBlock.outBuf_eq (h : t.SameBlock s) : t.outBuf = s.outBuf := h.congr State.outBuf

theorem State.sameBlock_tick (s : State) : s.tick.SameBlock s := rfl

theorem State.sameBlock_response (s : State) (r : Option Response) : { s with response := r }.tick.SameBlock s := rfl

end

/-- The engine's turn always answers, with BUSY = 0 (spec/43_control.md R181). -/
theorem engineTurn_next (s : State) : ∃ t, engineTurn s = .next t ∧ t.busy = false := by
  cases hb : s.busy with
  | false => exact ⟨s, engineTurn_of_idle hb, hb⟩
  | true =>
    obtain ⟨t, ht, hbusy, -⟩ := performPending_completes s
    exact ⟨t, (engineTurn_of_busy hb).trans ht, hbusy⟩

/-- `t` is what `n` turns of the engine make of `s`, whatever else moved the bus: nothing if it was idle or `n = 0`, and
otherwise its command, performed once. -/
structure State.AfterTurns (s : State) (n : Nat) (t : State) : Prop where
  unchanged : s.busy = false ∨ n = 0 → t.SameBlock s
  performed : s.busy = true → 0 < n →
    t.busy = false ∧ ∃ u v, u.SameBlock s ∧ performPending u = .next v ∧ t.SameBlock v

section
variable {s t u : State} {n : Nat}

theorem State.AfterTurns.zero (s : State) : s.AfterTurns 0 s :=
  ⟨fun _ => .refl s, fun _ hn => absurd hn (Nat.lt_irrefl 0)⟩

/-- What only moves the bus is no turn of the engine. -/
theorem State.AfterTurns.sameBlock (h : s.AfterTurns n t) (hu : u.SameBlock t) : s.AfterTurns n u := by
  refine ⟨fun hs => (h.unchanged hs).trans hu, fun hb hn => ?_⟩
  obtain ⟨hidle, w, v, hw, hv, ht⟩ := h.performed hb hn
  exact ⟨hu.busy_eq.trans hidle, w, v, hw, hv, ht.trans hu⟩

theorem State.AfterTurns.busy_iff (h : s.AfterTurns n t) : t.busy = true ↔ s.busy = true ∧ n = 0 := by
  cases hb : s.busy with
  | false => simp [(h.unchanged (.inl hb)).busy_eq, hb]
  | true =>
    rcases Nat.eq_zero_or_pos n with rfl | hn
    · simp [(h.unchanged (.inr rfl)).busy_eq, hb]
    · simp [(h.performed hb hn).1, Nat.ne_of_gt hn]

/-- The engine's first turn performs the command, and the later ones find the block idle. -/
theorem State.AfterTurns.turn (h : s.AfterTurns n t) (hu : engineTurn t = .next u) : s.AfterTurns (n + 1) u.tick := by
  cases hb : t.busy with
  | false =>
    rw [engineTurn_of_idle hb] at hu
    cases hu
    refine ⟨fun hs => (h.unchanged (.inl ?_)).trans t.sameBlock_tick, fun hbusy _ => ?_⟩
    · exact hs.resolve_right (Nat.succ_ne_zero n)
    · have hn : n ≠ 0 := fun hn => by simp [h.busy_iff.2 ⟨hbusy, hn⟩] at hb
      exact (h.sameBlock t.sameBlock_tick).performed hbusy (Nat.pos_of_ne_zero hn)
  | true =>
    obtain ⟨hbusy, rfl⟩ := h.busy_iff.1 hb
    obtain ⟨v, hv, hidle⟩ := engineTurn_next t
    obtain rfl : u = v := by rw [hu] at hv; cases hv; rfl
    rw [engineTurn_of_busy hb] at hu
    refine ⟨fun hs => ?_, fun _ _ => ⟨hidle, t, u, h.unchanged (.inr rfl), hu, u.sameBlock_tick⟩⟩
    simp [hbusy] at hs

/-- A run that starts with turns of the engine. -/
theorem systemRun_turns (m : Nat) (h : HostThread) (hn : s.AfterTurns n t) :
    ∃ u, s.AfterTurns (n + m) u ∧
      ∀ as, systemRun (List.replicate m .engine ++ as) h t = systemRun as h u := by
  induction m generalizing n t with
  | zero => exact ⟨t, hn, fun _ => rfl⟩
  | succ m ih =>
    obtain ⟨v, hv, -⟩ := engineTurn_next t
    obtain ⟨u, hu, hrun⟩ := ih (hn.turn hv)
    refine ⟨u, by rwa [Nat.add_right_comm, Nat.add_assoc] at hu, fun as => ?_⟩
    rw [List.replicate_succ, List.cons_append, systemRun_engine hv, hrun]

end

end Sys2Proof.Machine
end

section
/-! `WAIT`: its three statements, and how its rounds end (spec/30_encoding.md R101). -/

namespace Sys2Proof.Machine

/-- BUSY, as `WAIT`'s mask finds it in the word read. -/
theorem and_one_eq_zero_iff {v : Word} : v &&& 0x1 = 0 ↔ v.getLsbD 0 = false := by
  have hand : v &&& 0x1 = (BitVec.ofBool (v.getLsbD 0)).setWidth 32 := BitVec.and_one_eq_setWidth_ofBool_getLsbD
  rw [hand]
  cases v.getLsbD 0 <;> decide

section
variable {h : HostThread} {s : State} {l : Label} {x : Var} {pre post : List Stmt}

theorem HostThread.At.waitLabel (ha : h.At pre (waitStmts l x) post 0) : hostStmt h s = some (h.skip, s) :=
  hostStmt_label (ha.current rfl rfl)

/-- The read of STATUS sees BUSY whatever it is (spec/20_memory.md R65). -/
theorem HostThread.At.waitRead (ha : h.At pre (waitStmts l x) post 1) :
    hostStmt h s = some (h.assign x s.statusWord, { s with response := some (.data s.statusWord) }) := by
  have hread : s.hostRead (Target.reg .status).offset = s.statusWord := s.hostRead_of_busyReadable (by decide)
  rw [hostStmt_rd (ha.current rfl rfl), hread]

/-- The label stands where `WAIT` starts: it is fresh. -/
theorem HostThread.At.goto_label {i : Nat} (ha : h.At pre (waitStmts l x) post i) (hl : Stmt.label l ∉ pre) :
    ∃ h', h.goto l = some h' ∧ h'.At pre (waitStmts l x) post 0 := by
  have hmem : Stmt.label l ∈ h.prog := by simp [ha.prog, waitStmts]
  have hidx : h.prog.idxOf (.label l) = pre.length := by
    rw [ha.prog, List.append_assoc, List.idxOf_append_of_notMem hl]
    simp [waitStmts]
  exact ⟨_, if_pos hmem, ha.prog, rfl, hidx⟩

section
variable {v : Word} (ha : h.At pre (waitStmts l x) post 2) (hx : h.lookup x = some v)
include ha hx

theorem HostThread.At.waitBranch_back (hl : Stmt.label l ∉ pre) (hv : v.getLsbD 0 = true) :
    ∃ h', hostStmt h s = some (h', s) ∧ h'.At pre (waitStmts l x) post 0 := by
  obtain ⟨h', hgoto, hat⟩ := ha.goto_label hl
  refine ⟨h', ?_, hat⟩
  rw [hostStmt_bnz (ha.current rfl rfl) hx,
    if_pos (by rw [ne_eq, and_one_eq_zero_iff, hv]; decide), hgoto, Option.map_some]

theorem HostThread.At.waitBranch_through (hv : v.getLsbD 0 = false) : hostStmt h s = some (h.skip, s) := by
  rw [hostStmt_bnz (ha.current rfl rfl) hx,
    if_neg (not_not.2 (and_one_eq_zero_iff.2 hv)), Option.map_some]

/-- The branch goes back exactly if BUSY was 1 in the word read. -/
theorem HostThread.At.waitBranch (hl : Stmt.label l ∉ pre) :
    ∃ h', hostStmt h s = some (h', s) ∧ h'.At pre (waitStmts l x) post (if v.getLsbD 0 = true then 0 else 3) := by
  cases hv : v.getLsbD 0 with
  | false => exact ⟨h.skip, ha.waitBranch_through hx hv, ha.skip⟩
  | true => exact ha.waitBranch_back hx hl hv

end

end

/-- Settles O50: the three statements only move the bus, so the block is what the engine's turns make of it, and BUSY is
read as the turns before the read leave it. -/
theorem waitPollsUntilIdle : Obligations.WaitPollsUntilIdle := by
  intro h s l x pre post a b c hprog hl hpc htodo turns
  have h0 : h.At pre (waitStmts l x) post 0 := ⟨hprog, htodo, hpc⟩
  obtain ⟨s1, hs1, hrun1⟩ := systemRun_turns a h (.zero s)
  obtain ⟨s2, hs2, hrun2⟩ := systemRun_turns b h.skip (hs1.sameBlock s1.sameBlock_tick)
  obtain ⟨s3, hs3, hrun3⟩ := systemRun_turns c (h.skip.assign x s2.statusWord)
    (hs2.sameBlock (s2.sameBlock_response (some (.data s2.statusWord))))
  obtain ⟨h', hbranch, hat⟩ := (h0.skip.assign x s2.statusWord).waitBranch (s := s3) (HostThread.lookup_assign_self ..) hl
  have hdone := hs3.sameBlock s3.sameBlock_tick
  rw [Nat.zero_add] at hdone
  refine ⟨h', s3.tick, ?_, hat.prog.trans hprog.symm, hat.todo, ?_, hdone.unchanged, hdone.performed⟩
  · rw [hrun1, systemRun_host h0.waitLabel, hrun2, systemRun_host h0.skip.waitRead, hrun3, systemRun_host hbranch,
      systemRun]
  · rw [hat.pc, s2.statusWord_bits.1]
    have hbusy : s2.busy = true ↔ s.busy = true ∧ a = 0 ∧ b = 0 := by
      rw [hs2.busy_iff, Nat.zero_add, Nat.add_eq_zero_iff]
    simp only [hbusy]
    split <;> rfl

/-- How many host statements `WAIT` has left from here once BUSY = 0. A last read of BUSY = 0 was true: BUSY is 0. -/
inductive WaitLeft (pre post : List Stmt) (l : Label) (x : Var) (h : HostThread) (busy : Bool) : Nat → Prop where
  | label (ha : h.At pre (waitStmts l x) post 0) : WaitLeft pre post l x h busy 3
  | read (ha : h.At pre (waitStmts l x) post 1) : WaitLeft pre post l x h busy 2
  | back (ha : h.At pre (waitStmts l x) post 2) {v : Word} (hx : h.lookup x = some v) (hv : v.getLsbD 0 = true) :
      WaitLeft pre post l x h busy 4
  | through (ha : h.At pre (waitStmts l x) post 2) {v : Word} (hx : h.lookup x = some v) (hv : v.getLsbD 0 = false)
      (hb : busy = false) : WaitLeft pre post l x h busy 1

/-- Some initial part of the interleaving brings the host past `WAIT`, with BUSY = 0. -/
def WaitEnds (pre post : List Stmt) (l : Label) (x : Var) (as : List Agent) (h : HostThread) (s : State) : Prop :=
  ∃ done, done <+: as ∧ ∃ h' t, systemRun done h s = some (h', t) ∧ h'.At pre (waitStmts l x) post 3 ∧ t.busy = false

section
variable {pre post : List Stmt} {l : Label} {x : Var} {h h' : HostThread} {s t : State} {k : Nat} {as : List Agent}

theorem WaitEnds.of_at (ha : h.At pre (waitStmts l x) post 3) (hb : s.busy = false) : WaitEnds pre post l x as h s :=
  ⟨[], List.nil_prefix, h, s, rfl, ha, hb⟩

theorem WaitEnds.host (hs : hostStmt h s = some (h', t)) (he : WaitEnds pre post l x as h' t.tick) :
    WaitEnds pre post l x (.host :: as) h s := by
  obtain ⟨done, hdone, hrun⟩ := he
  exact ⟨.host :: done, List.cons_prefix_cons.2 ⟨rfl, hdone⟩, by rwa [systemRun_host hs]⟩

theorem WaitEnds.engine (hs : engineTurn s = .next t) (he : WaitEnds pre post l x as h t.tick) :
    WaitEnds pre post l x (.engine :: as) h s := by
  obtain ⟨done, hdone, hrun⟩ := he
  exact ⟨.engine :: done, List.cons_prefix_cons.2 ⟨rfl, hdone⟩, by rwa [systemRun_engine hs]⟩

theorem WaitLeft.idle {b : Bool} (hw : WaitLeft pre post l x h b k) : WaitLeft pre post l x h false k := by
  cases hw with
  | label ha => exact .label ha
  | read ha => exact .read ha
  | back ha hx hv => exact .back ha hx hv
  | through ha hx hv _ => exact .through ha hx hv rfl

theorem WaitLeft.pos_and_le {b : Bool} (hw : WaitLeft pre post l x h b k) : 1 ≤ k ∧ k ≤ 4 := by
  cases hw <;> decide

/-- A host statement inside `WAIT` leaves it with BUSY = 0, or stays in it, and then one statement fewer is left if
BUSY = 0. -/
theorem WaitLeft.host (hw : WaitLeft pre post l x h s.busy k) (hl : Stmt.label l ∉ pre) :
    ∃ h' t, hostStmt h s = some (h', t) ∧ t.busy = s.busy ∧
      (h'.At pre (waitStmts l x) post 3 ∧ s.busy = false ∨
        ∃ k', WaitLeft pre post l x h' s.busy k' ∧ (s.busy = false → k = k' + 1)) := by
  cases hw with
  | label ha => exact ⟨_, _, ha.waitLabel, rfl, .inr ⟨2, .read ha.skip, fun _ => rfl⟩⟩
  | read ha =>
    refine ⟨_, _, ha.waitRead, rfl, .inr ?_⟩
    have ha' := ha.assign x s.statusWord
    have hx := h.lookup_assign_self x s.statusWord
    have hbit := s.statusWord_bits.1
    cases hb : s.busy with
    | false => exact ⟨1, .through ha' hx (hbit.trans hb) rfl, fun _ => rfl⟩
    | true => exact ⟨4, .back ha' hx (hbit.trans hb), nofun⟩
  | back ha hx hv =>
    obtain ⟨h', hs, hat⟩ := ha.waitBranch_back hx hl hv
    exact ⟨h', s, hs, rfl, .inr ⟨3, .label hat, fun _ => rfl⟩⟩
  | through ha hx hv hb => exact ⟨_, _, ha.waitBranch_through hx hv, rfl, .inl ⟨ha.skip, hb⟩⟩

/-- With BUSY = 0, `WAIT` ends once its statements left have run. -/
theorem waitEnds_of_idle (hw : WaitLeft pre post l x h s.busy k) (hl : Stmt.label l ∉ pre) (hb : s.busy = false)
    (hk : k ≤ as.count .host) : WaitEnds pre post l x as h s := by
  induction as generalizing h s k with
  | nil =>
    have hpos := hw.pos_and_le
    rw [List.count_nil] at hk
    omega
  | cons a as ih =>
    cases a with
    | host =>
      rw [List.count_cons_self] at hk
      obtain ⟨h', t, hs, ht, hexit | ⟨k', hw', hk'⟩⟩ := hw.host hl
      · exact .host hs (.of_at hexit.1 (ht.trans hb))
      · have := hk' hb
        rw [← ht] at hw'
        exact .host hs (ih hw' (ht.trans hb) (by omega))
    | engine =>
      rw [List.count_cons_of_ne (by decide)] at hk
      exact .engine (engineTurn_of_idle hb) (ih hw hb hk)

/-- Up to the engine's move the host goes round in `WAIT` or leaves it; after it at most four statements are left. -/
theorem waitEnds_of_engine (hw : WaitLeft pre post l x h s.busy k) (hl : Stmt.label l ∉ pre) (before : List Agent)
    (hrest : 4 ≤ as.count .host) : WaitEnds pre post l x (before ++ .engine :: as) h s := by
  induction before generalizing h s k with
  | nil =>
    obtain ⟨t, ht, hb⟩ := engineTurn_next s
    have hw' : WaitLeft pre post l x h t.tick.busy k := by rw [State.tick_busy, hb]; exact hw.idle
    exact .engine ht (waitEnds_of_idle hw' hl hb (hw.pos_and_le.2.trans hrest))
  | cons a before ih =>
    cases a with
    | host =>
      obtain ⟨h', t, hs, ht, ⟨hexit, hb⟩ | ⟨k', hw', -⟩⟩ := hw.host hl
      · exact .host hs (.of_at hexit (ht.trans hb))
      · rw [← ht] at hw'
        exact .host hs (ih hw')
    | engine =>
      obtain ⟨t, ht, hb⟩ := engineTurn_next s
      have hw' : WaitLeft pre post l x h t.tick.busy k := by rw [State.tick_busy, hb]; exact hw.idle
      exact .engine ht (ih hw')

end

/-- Settles O51: by induction on the interleaving up to the engine's move, and then on the rest of it. -/
theorem waitEndsOnceTheEngineHasMoved : Obligations.WaitEndsOnceTheEngineHasMoved := by
  intro h s l x pre post before rest hprog hl hpc htodo hrest
  have hw : WaitLeft pre post l x h s.busy 3 := .label ⟨hprog, htodo, hpc⟩
  obtain ⟨done, hdone, h', t, hrun, hat, hb⟩ := waitEnds_of_engine hw hl before hrest
  exact ⟨done, hdone, h', t, hrun, hat.prog.trans hprog.symm, hat.todo, hat.pc, hb⟩

end Sys2Proof.Machine
end

section
/-! `LOADIN`: bytes written into IN one after the other, and their number into IN_LEN (spec/30_encoding.md R101,
spec/20_memory.md R63). -/

namespace Sys2Proof.Machine

/-- The buffer after the bytes have been written into it from index `k` on. -/
def Memory.load : Memory → Nat → List Byte → Memory
  | m, _, [] => m
  | m, k, b :: bs => (m.write k b).load (k + 1) bs

section
variable {i k : Nat} {bytes : List Byte}

theorem Memory.read_load_outside (m : Memory) (h : i < k ∨ k + bytes.length ≤ i) :
    (m.load k bytes).read i = m.read i := by
  induction bytes generalizing m k with
  | nil => rfl
  | cons b bs ih =>
    rw [List.length_cons] at h
    rw [Memory.load, ih _ (by omega), Memory.read_write_other _ _ (by omega)]

theorem Memory.read_load_inside (m : Memory) (h : i < bytes.length) : (m.load k bytes).read (k + i) = bytes[i]? := by
  induction bytes generalizing m k i with
  | nil => exact absurd h (Nat.not_lt_zero i)
  | cons b bs ih =>
    cases i with
    | zero => exact (Memory.read_load_outside _ (.inl (Nat.lt_succ_self k))).trans (Memory.read_write_same _ _ _)
    | succ i =>
      rw [Memory.load, Nat.add_comm i, ← Nat.add_assoc, ih _ (Nat.lt_of_succ_lt_succ h), Nat.add_comm 1,
        List.getElem?_cons_succ]

end

/-- A register of `n` bits keeps the value that was widened to be written. -/
theorem extractLsb'_zext32 {n : Nat} (hn : n ≤ 32) (v : BitVec n) : (zext32 v).extractLsb' 0 n = v := by
  apply BitVec.eq_of_toNat_eq
  simp [toNat_zext32 hn]

theorem extractLsb'_infoOf (n : Nat) : (infoOf n).extractLsb' 0 16 = BitVec.ofNat 16 n := by
  apply BitVec.eq_of_toNat_eq
  simp only [infoOf, BitVec.extractLsb'_toNat, BitVec.toNat_ofNat, Nat.shiftRight_zero]
  omega

section
variable {s : State}

theorem State.hostWrite_inByte (hb : s.busy = false) {k : Nat} (hk : k < s.cfg.bufSize) (hmax : k < 1024) (v : Word) :
    s.hostWrite (Target.inByte k).offset v = { s with inBuf := s.inBuf.write k (v.extractLsb' 0 8) } := by
  rw [State.hostWrite_of_idle v hb, Target.offset, locate_inWord hmax, if_pos hk, State.writeIdle]

theorem State.hostWrite_inLen (hb : s.busy = false) (v : Word) :
    s.hostWrite (Target.reg .inLen).offset v = { s with inLen := v.extractLsb' 0 16 } := by
  rw [State.hostWrite_of_idle v hb, Target.offset, locate_reg, State.writeIdle, State.writeReg]

variable {h : HostThread} {w : Value}

/-- A `WR` of an IN byte while BUSY = 0. -/
theorem hostStmt_wr_inByte (hb : s.busy = false) {k : Nat} (hk : k < s.cfg.bufSize) (hmax : k < 1024)
    (hc : h.current = some (.wr (.inByte k) w)) {b : Byte} (hv : h.value w = some (zext32 b)) :
    hostStmt h s = some (h.skip, { s with inBuf := s.inBuf.write k b, response := some .ack }) := by
  rw [hostStmt_wr hc hv, State.hostWrite_inByte hb hk hmax, extractLsb'_zext32 (by decide)]

/-- A `WR` of IN_LEN while BUSY = 0. -/
theorem hostStmt_wr_inLen (hb : s.busy = false) (hc : h.current = some (.wr (.reg .inLen) w)) {v : Word}
    (hv : h.value w = some v) :
    hostStmt h s = some (h.skip, { s with inLen := v.extractLsb' 0 16, response := some .ack }) := by
  rw [hostStmt_wr hc hv, State.hostWrite_inLen hb]

end

/-- The writes of values into IN from index `k` on, then of a length into IN_LEN: `LOADIN`, and the end of
`COPYOUT`. -/
def fillStmts : Nat → List Value → Value → List Stmt
  | _, [], len => [.wr (.reg .inLen) len]
  | k, v :: vs, len => .wr (.inByte k) v :: fillStmts (k + 1) vs len

theorem loadInStmts_eq_fillStmts (bytes : List Byte) :
    loadInStmts bytes = fillStmts 0 (bytes.map fun b => .num (zext32 b)) (.num (infoOf bytes.length)) := by
  have hload (k : Nat) (len : Value) :
      loadFrom k bytes ++ [.wr (.reg .inLen) len] = fillStmts k (bytes.map fun b => .num (zext32 b)) len := by
    induction bytes generalizing k with
    | nil => rfl
    | cons b bs ih => exact congrArg (_ :: ·) (ih (k + 1))
  exact hload 0 _

/-- The block after those writes. -/
def State.afterFill (s : State) (k : Nat) (bytes : List Byte) (len : Word) : State :=
  { s with
    inBuf := s.inBuf.load k bytes, inLen := len.extractLsb' 0 16, response := some .ack
    draw := s.draw + bytes.length + 1 }

theorem State.afterFill_cons (s : State) (k : Nat) (b : Byte) (bs : List Byte) (w : Word) :
    (State.tick { s with inBuf := s.inBuf.write k b, response := some .ack }).afterFill (k + 1) bs w =
      s.afterFill k (b :: bs) w := by
  have hdraw : s.draw + 1 + bs.length + 1 = s.draw + (bs.length + 1) + 1 := by omega
  simp only [State.afterFill, State.tick, Memory.load, List.length_cons, hdraw]

/-- Running those writes on an idle block. The thread only moves on. -/
theorem systemRun_fillStmts {h : HostThread} {s : State} {k : Nat} {values : List Value} {bytes : List Byte}
    {len : Value} {w : Word} {rest : List Stmt} (hc : s.cfg.legal) (hb : s.busy = false)
    (hk : k + bytes.length ≤ s.cfg.bufSize) (hu : h.upcoming = fillStmts k values len ++ rest)
    (hvalues : values.map h.value = bytes.map fun b => some (zext32 b)) (hlen : h.value len = some w) :
    systemRun (List.replicate (bytes.length + 1) .host) h s =
      some (HostThread.skip^[bytes.length + 1] h, s.afterFill k bytes w) := by
  induction bytes generalizing h s k values with
  | nil =>
    obtain rfl := List.map_eq_nil_iff.1 hvalues
    exact systemRun_host (hostStmt_wr_inLen hb (HostThread.current_of_upcoming hu rfl) hlen) []
  | cons b bs ih =>
    obtain ⟨v, vs, rfl, hv, hvs⟩ := List.map_eq_cons_iff.1 hvalues
    rw [List.length_cons] at hk
    have hmax : k < 1024 := by have := hc.2; omega
    have hstmt := hostStmt_wr_inByte hb (k := k) (by omega) hmax
      (HostThread.current_of_upcoming hu (decide_eq_true hmax)) hv
    rw [List.length_cons, List.replicate_succ, systemRun_host hstmt,
      ih (by exact hc) (by exact hb) (by simp; omega) (HostThread.upcoming_skip hu) (by rwa [HostThread.value_skip])
        (by rwa [HostThread.value_skip]), State.afterFill_cons, Function.iterate_succ_apply _ (bs.length + 1)]

/-- Settles O52: LOADIN's statements write the bytes and their number, and the thread's place moves past them. -/
theorem loadInFillsTheInput : Obligations.LoadInFillsTheInput := by
  intro h s bytes pre post hc hb hn hprog hpc htodo
  have h0 : h.At pre (loadInStmts bytes) post 0 := ⟨hprog, htodo, hpc⟩
  have hu := h0.upcoming
  rw [loadInStmts_eq_fillStmts] at hu
  have hrun := systemRun_fillStmts (bytes := bytes) hc hb (by omega) hu (List.map_map ..) rfl
  refine ⟨s.inBuf.load 0 bytes, ?_, fun i hi => ?_, fun i hi => ?_⟩
  · rw [hrun, HostThread.skip_iterate_of_prog htodo, hpc]
    rw [State.afterFill, extractLsb'_infoOf]
    rfl
  · simpa using Memory.read_load_inside (k := 0) s.inBuf hi
  · exact Memory.read_load_outside _ (.inr (by omega))

end Sys2Proof.Machine
end

section
/-! `READOUT` and `COPYOUT`: OUT_LEN and the bytes of OUT into the host's variables, and from there into IN
(spec/30_encoding.md R101, spec/70_reset_and_hazards.md R242). -/

namespace Sys2Proof.Machine

section
variable {s : State} (hb : s.busy = false)
include hb

theorem State.hostRead_outLen : s.hostRead 0x001C = zext32 s.outLen := by
  rw [State.hostRead_of_idle hb]
  exact congrArg s.readIdle (locate_reg _ .outLen)

theorem State.hostRead_outByte {k : Nat} (hk : k < s.cfg.bufSize) (hmax : k < 1024) :
    s.hostRead (Target.outByte k).offset = zext32 (s.outByte k) := by
  rw [State.hostRead_of_idle hb, Target.offset, locate_outWord hmax, if_pos hk, State.readIdle]

end

theorem State.OutBufFilled.outLen_le {s : State} (h : s.OutBufFilled) : s.outLen.toNat ≤ s.cfg.bufSize := by
  obtain ⟨-, hlen, -⟩ := h
  exact hlen

theorem State.outByte_of_read {s : State} {i : Nat} {b : Byte} (h : s.outBuf.read i = some b) : s.outByte i = b := by
  simp [State.outByte, h]

/-- Below its length a filled OUT reads as its bytes. -/
theorem State.OutBufFilled.read_eq_some {s : State} (h : s.OutBufFilled) {i : Nat} (hi : i < s.outLen.toNat) :
    s.outBuf.read i = some (s.outByte i) := by
  obtain ⟨-, -, hfilled⟩ := h
  obtain ⟨b, hread⟩ := Option.isSome_iff_exists.1 ((hfilled i).2 hi)
  rw [hread, State.outByte_of_read hread]

/-- `h'` is `h` with the first `n` bytes of `out` in the variables from `o` on. -/
structure HostThread.HasRead (h h' : HostThread) (out : Memory) (o : Var) (n : Nat) : Prop where
  prog : h'.prog = h.prog
  pc : h'.pc = h.pc
  bytes : ∀ i, i < n → h'.lookup (o + i) = (out.read i).map zext32
  others : ∀ y, y < o → h'.lookup y = h.lookup y

theorem HostThread.HasRead.zero (h : HostThread) (out : Memory) (o : Var) : h.HasRead h out o 0 :=
  ⟨rfl, rfl, fun _ hi => absurd hi (Nat.not_lt_zero _), fun _ _ => rfl⟩

theorem readBytes_succ (o : Var) (n : Nat) : readBytes o (n + 1) = readBytes o n ++ [.rd (o + n) (.outByte n)] := by
  simp [readBytes, List.range_succ]

/-- One more byte read, by a queued statement. -/
theorem HostThread.HasRead.succ {h h' : HostThread} {out : Memory} {o : Var} {n : Nat} {st : Stmt} {rest : List Stmt}
    (hr : h.HasRead h' out o n) (ht : h'.todo = st :: rest) {b : Byte} (hread : out.read n = some b) :
    h.HasRead (h'.assign (o + n) (zext32 b)) out o (n + 1) where
  prog := (h'.assign_prog _ _).trans hr.prog
  pc := by rw [HostThread.assign_pc, HostThread.skip_of_todo ht, hr.pc]
  bytes i hi := by
    rcases Nat.lt_succ_iff_lt_or_eq.1 hi with hlt | rfl
    · rw [HostThread.lookup_assign_of_ne _ _ _ _ fun he => hlt.ne (Nat.add_left_cancel he), hr.bytes i hlt]
    · rw [HostThread.lookup_assign_self, hread, Option.map_some]
  others y hy := by
    rw [HostThread.lookup_assign_of_ne _ _ _ _ (Nat.ne_of_lt (Nat.lt_add_right n hy)), hr.others y hy]

section
variable {h : HostThread} {s : State} (hc : s.cfg.legal) (hf : s.OutBufFilled) (hb : s.busy = false)
include hc hf hb

/-- Running the queued reads of the first bytes of OUT. -/
theorem systemRun_readBytes {o : Var} {n : Nat} {rest : List Stmt} (hn : n ≤ s.outLen.toNat)
    (ht : h.todo = readBytes o n ++ rest) :
    ∃ h' t, systemRun (List.replicate n .host) h s = some (h', t) ∧ h.HasRead h' s.outBuf o n ∧ h'.todo = rest ∧
      t.SameBlock s := by
  induction n generalizing rest with
  | zero => exact ⟨h, s, rfl, .zero h _ o, ht, .refl s⟩
  | succ n ih =>
    rw [readBytes_succ, List.append_assoc] at ht
    obtain ⟨h', t, hrun, hread, htodo, hsame⟩ := ih (Nat.le_of_succ_le hn) ht
    have hbuf : n < s.cfg.bufSize := Nat.lt_of_lt_of_le hn hf.outLen_le
    have hmax : n < 1024 := hbuf.trans_le hc.2
    have hbyte := hf.read_eq_some hn
    have hsent : t.outByte n = s.outByte n := State.outByte_of_read (hsame.outBuf_eq ▸ hbyte)
    have hstmt := hostStmt_rd (s := t) (HostThread.current_of_todo htodo (decide_eq_true hmax))
    rw [State.hostRead_outByte (hsame.busy_eq.trans hb) (hsame.cfg_eq ▸ hbuf) hmax, hsent] at hstmt
    refine ⟨_, _, ?_, hread.succ htodo hbyte, ?_,
      hsame.trans (t.sameBlock_response (some (.data (zext32 (s.outByte n)))))⟩
    · rw [List.replicate_succ', systemRun_append, hrun, Option.bind_some, systemRun_host hstmt, systemRun]
    · rw [HostThread.assign_todo, HostThread.skip_of_todo htodo]
      rfl

/-- Running `READOUT`, or the same statements at the start of `COPYOUT`: the first statement reads OUT_LEN and queues
the reads of as many bytes. -/
theorem systemRun_readOut {n o : Var} {pre stmts post : List Stmt} (more : Nat → List Stmt)
    (ha : h.At pre stmts post 0)
    (hstmt : hostStmt h s = some ((h.assign n (s.hostRead 0x001C)).push
        (readBytes o (s.hostRead 0x001C).toNat ++ more (s.hostRead 0x001C).toNat),
      { s with response := some (.data (s.hostRead 0x001C)) })) :
    ∃ h' t, systemRun (List.replicate (s.outLen.toNat + 1) .host) h s = some (h', t) ∧
      (h.assign n (zext32 s.outLen)).HasRead h' s.outBuf o s.outLen.toNat ∧ h'.todo = more s.outLen.toNat ∧
      t.SameBlock s := by
  rw [State.hostRead_outLen hb, toNat_zext32 (by decide)] at hstmt
  obtain ⟨h', t, hrun, hread, htodo, hsame⟩ := systemRun_readBytes
    (h := (h.assign n (zext32 s.outLen)).push (readBytes o s.outLen.toNat ++ more s.outLen.toNat))
    (s := State.tick { s with response := some (.data (zext32 s.outLen)) }) (o := o) (n := s.outLen.toNat)
    (rest := more s.outLen.toNat) hc hf hb le_rfl
    (by rw [HostThread.push_todo, (ha.assign _ _).todo, List.append_nil])
  refine ⟨h', t, ?_, ⟨hread.prog, hread.pc, hread.bytes, hread.others⟩, htodo, hsame⟩
  rw [List.replicate_succ, systemRun_host hstmt]
  exact hrun

end

/-- Settles O53: one read of OUT_LEN, then the reads it queues. -/
theorem readOutReadsTheOutput : Obligations.ReadOutReadsTheOutput := by
  intro h s n o pre post hc hf hb hno hprog hpc htodo
  have h0 : h.At pre (readOutStmts n o) post 0 := ⟨hprog, htodo, hpc⟩
  have hstmt := hostStmt_readOut (s := s) (h0.current rfl (decide_eq_true hno))
  rw [← List.append_nil (readBytes _ _)] at hstmt
  obtain ⟨h', t, hrun, hread, htodo', hsame⟩ := systemRun_readOut hc hf hb (fun _ => []) h0 hstmt
  have h1 := h0.assign n (zext32 s.outLen)
  refine ⟨h', t, hrun, hread.prog.trans (h.assign_prog _ _), htodo', hread.pc.trans h1.pc, ?_, hread.bytes, hsame⟩
  exact (hread.others n hno).trans (h.lookup_assign_self _ _)

theorem writeBytes_eq_fillStmts (x o : Var) (n : Nat) :
    writeBytes x o n = fillStmts 0 ((List.range n).map fun i => .var (o + i)) (.var x) := by
  have hwrite (k : Nat) : ((List.range' k n).map fun i => Stmt.wr (.inByte i) (.var (o + i))) ++
      [.wr (.reg .inLen) (.var x)] = fillStmts k ((List.range' k n).map fun i => .var (o + i)) (.var x) := by
    induction n generalizing k with
    | zero => rfl
    | succ n ih => exact congrArg (_ :: ·) (ih (k + 1))
  simp only [writeBytes, List.range_eq_range', hwrite]

theorem length_writeBytes (x o : Var) (n : Nat) : (writeBytes x o n).length = n + 1 := by simp [writeBytes]

/-- The writes reach IN and IN_LEN only. -/
theorem State.sameBlock_afterFill {s t : State} (h : t.SameBlock s) (k : Nat) (bytes : List Byte) (w : Word) :
    (t.afterFill k bytes w).SameBlock { s with inBuf := s.inBuf.load k bytes, inLen := w.extractLsb' 0 16 } := by
  have hcongr := h.congr fun u : State => { u with inBuf := u.inBuf.load k bytes, inLen := w.extractLsb' 0 16 }
  exact hcongr

/-- The variables that `READOUT` set hold the bytes of OUT. -/
theorem HostThread.HasRead.values {h h' : HostThread} {s : State} {o : Var} (hf : s.OutBufFilled)
    (hr : h.HasRead h' s.outBuf o s.outLen.toNat) :
    ((List.range s.outLen.toNat).map fun i => Value.var (o + i)).map h'.value =
      ((List.range s.outLen.toNat).map s.outByte).map fun b => some (zext32 b) := by
  rw [List.map_map, List.map_map]
  refine List.map_congr_left fun i hi => ?_
  have hi := List.mem_range.1 hi
  exact (hr.bytes i hi).trans (by rw [hf.read_eq_some hi]; rfl)

/-- Settles O54: `READOUT`'s statements, then the writes of what they read. -/
theorem copyOutMovesTheOutput : Obligations.CopyOutMovesTheOutput := by
  intro h s n o pre post hc hf hb hno hprog hpc htodo
  have h0 : h.At pre (copyOutStmts n o) post 0 := ⟨hprog, htodo, hpc⟩
  have hstmt := hostStmt_copyOut (s := s) (h0.current rfl (decide_eq_true hno))
  obtain ⟨h1, t, hrun, hread, htodo1, hsame⟩ := systemRun_readOut hc hf hb (writeBytes n o) h0 hstmt
  have hat := h0.assign n (zext32 s.outLen)
  generalize hbytes : (List.range s.outLen.toNat).map s.outByte = bytes
  have hlen : bytes.length = s.outLen.toNat := by simp [← hbytes]
  have hu : h1.upcoming =
      fillStmts 0 ((List.range s.outLen.toNat).map fun i => .var (o + i)) (.var n) ++ h1.prog.drop h1.pc := by
    rw [HostThread.upcoming, htodo1, writeBytes_eq_fillStmts]
  have hfill := systemRun_fillStmts (s := t) (bytes := bytes) (hsame.cfg_eq ▸ hc) (hsame.busy_eq.trans hb)
    (by rw [hsame.cfg_eq, hlen, Nat.zero_add]; exact hf.outLen_le) hu (hbytes ▸ hread.values hf)
    ((hread.others n hno).trans (h.lookup_assign_self _ _))
  have hblock := State.sameBlock_afterFill hsame 0 bytes (zext32 s.outLen)
  rw [extractLsb'_zext32 (by decide)] at hblock
  have hskip := HostThread.skip_iterate_of_todo (htodo1.trans (List.append_nil _).symm)
  rw [length_writeBytes, ← hlen] at hskip
  rw [hskip] at hfill
  refine ⟨{ h1 with todo := [] }, _, s.inBuf.load 0 bytes, ?_, hread.prog.trans (h.assign_prog _ _), rfl,
    hread.pc.trans hat.pc, hblock, fun i hi => ?_, fun i hi => ?_⟩
  · rw [show 2 * s.outLen.toNat + 2 = (s.outLen.toNat + 1) + (s.outLen.toNat + 1) by omega, List.replicate_add,
      systemRun_append, hrun, Option.bind_some, ← hlen, hfill]
  · have hin := Memory.read_load_inside (k := 0) s.inBuf (hlen ▸ hi)
    rw [Nat.zero_add] at hin
    rw [hin, hf.read_eq_some hi, ← hbytes]
    simp [hi]
  · exact Memory.read_load_outside _ (.inr (by omega))

end Sys2Proof.Machine
end

section
/-! The CRC-16 function (spec/40_crc.md R120-R123). -/

namespace Sys2Proof.Machine

theorem crcShifts_eq_iterate (k : Nat) (c : Half) : crcShifts k c = crcShift^[k] c := by
  induction k generalizing c with
  | zero => rfl
  | succ k ih => exact ih (crcShift c)

theorem crc16_eq_foldl (c : Half) (bytes : List Byte) : crc16 c bytes = bytes.foldl crcStep c := by
  induction bytes generalizing c with
  | nil => rfl
  | cons b bytes ih => exact ih (crcStep c b)

theorem crc16_append (c : Half) (a b : List Byte) : crc16 c (a ++ b) = crc16 (crc16 c a) b := by
  simp only [crc16_eq_foldl, List.foldl_append]

/-- No XOR happens while the bits shifted out are 0. -/
theorem crcShifts_eq_ushiftRight {k : Nat} {c : Half} (h : ∀ i < k, c.getLsbD i = false) : crcShifts k c = c >>> k := by
  induction k generalizing c with
  | zero => exact (BitVec.ushiftRight_zero c).symm
  | succ k ih =>
    have hshift : crcShift c = c >>> 1 := if_neg (ne_true_of_eq_false (h 0 k.succ_pos))
    have hlow : ∀ i < k, (c >>> 1).getLsbD i = false := fun i hi => by
      rw [BitVec.getLsbD_ushiftRight]
      exact h (1 + i) (by omega)
    rw [crcShifts, hshift, ih hlow, ← BitVec.shiftRight_add, Nat.add_comm]

/-- A CRC's own low byte cancels its low half, and the eight shifts bring its high byte down. -/
theorem crcStep_loByte (c : Half) : crcStep c (loByte c) = (hiByte c).setWidth 16 := by
  have hlow : ∀ i < 8, (c ^^^ (loByte c).setWidth 16).getLsbD i = false := fun i hi => by
    have hi16 : i < 16 := by omega
    simp [loByte, hi, hi16]
  rw [crcStep, crcShifts_eq_ushiftRight hlow]
  ext i hi
  have hbound : c.getLsbD (8 + i) = true → i < 8 := fun hbit => by
    have := BitVec.lt_of_getLsbD hbit
    omega
  simpa [loByte, hiByte] using hbound

/-- A CRC that is just the next byte is cancelled by it. -/
theorem crcStep_setWidth_self (b : Byte) : crcStep (b.setWidth 16) b = 0 := by
  rw [crcStep, BitVec.xor_self]
  rfl

/-- spec/40_crc.md R123 (b) from any CRC value: its trailer, low byte first (R122), takes it to 0. -/
theorem crc16_trailer (c : Half) : crc16 c [loByte c, hiByte c] = 0 := by
  rw [crc16, crc16, crc16, crcStep_loByte, crcStep_setWidth_self]

/-- Settles O13: `crcShifts` iterates the conditional shift, and `crc16` recurses as the left fold does. -/
theorem crcIsTheFoldOfEightShifts : Obligations.CrcIsTheFoldOfEightShifts :=
  ⟨fun c b => crcShifts_eq_iterate 8 (c ^^^ b.setWidth 16), crc16_eq_foldl⟩

/-- Settles O32: a left fold over an append. -/
theorem crcOfPiecesChains : Obligations.CrcOfPiecesChains := crc16_append

/-- Settles O33: the CRC chains over its trailer, which takes any value to 0. -/
theorem crcOfFrameWithTrailerIsZero : Obligations.CrcOfFrameWithTrailerIsZero := fun s =>
  (crc16_append 0xFFFF s _).trans (crc16_trailer (crc16 0xFFFF s))

end Sys2Proof.Machine
end

section
/-! The standalone accumulator's commands, CRC_INIT and CRC_UPDATE (spec/40_crc.md R125, R126). -/

namespace Sys2Proof.Machine

theorem State.inSlice_zero (s : State) (n : Nat) : s.inSlice 0 n = (List.range n).map s.inByte := by
  rw [State.inSlice, Nat.sub_zero, List.range_eq_range']

theorem execCrcUpdate_of_le {s : State} (h : s.inLen.toNat ≤ s.cfg.bufSize) :
    execCrcUpdate s = .next ({ s with crcAcc := crc16 s.crcAcc (s.inSlice 0 s.inLen.toNat) }.complete .ok 0 0) :=
  if_neg (Nat.not_lt.2 h)

theorem execCrcUpdate_of_overflow {s : State} (h : s.cfg.bufSize < s.inLen.toNat) :
    execCrcUpdate s = .next (s.complete .bufferOverflow (infoOf s.cfg.bufSize) (infoOf s.inLen.toNat)) :=
  if_pos h

/-- Settles O12: CRC_INIT has one way to go, loading the initial value and completing. -/
theorem crcInitLoadsTheInitialValue : Obligations.CrcInitLoadsTheInitialValue := fun _ => rfl

/-- Settles O14: the branch IN_LEN ≤ BUF_SIZE folds IN[0..IN_LEN), and the other one only reports. -/
theorem crcUpdateFoldsTheInput : Obligations.CrcUpdateFoldsTheInput := by
  intro s
  constructor
  · intro hfits
    rw [← State.inSlice_zero, ← crc16_eq_foldl]
    exact execCrcUpdate_of_le hfits
  · exact execCrcUpdate_of_overflow

end Sys2Proof.Machine
end

section
/-! More about the operands: parts of IN slices, one byte replaced, IN as a copy of an output, and 16-bit values. -/

namespace Sys2Proof.Machine

theorem halfOf_inj {hi lo hi' lo' : Byte} : halfOf hi lo = halfOf hi' lo' ↔ hi = hi' ∧ lo = lo' := by
  refine ⟨fun h => ⟨?_, ?_⟩, fun ⟨hhi, hlo⟩ => hhi ▸ hlo ▸ rfl⟩
  · rw [← hiByte_halfOf hi lo, h, hiByte_halfOf]
  · rw [← loByte_halfOf hi lo, h, loByte_halfOf]

theorem byte_xor_bit_ne (x : Byte) {b : Nat} (hb : b < 8) : x ^^^ BitVec.ofNat 8 (2 ^ b) ≠ x := by
  intro h
  have hzero : BitVec.ofNat 8 (2 ^ b) = 0 := (BitVec.xor_right_inj x).1 (h.trans BitVec.xor_zero.symm)
  interval_cases b <;> cases hzero

theorem State.toNat_putOut_outLen (s : State) {bytes : List Byte} (h : bytes.length < 2 ^ 16) :
    (s.putOut bytes).outLen.toNat = bytes.length := by
  rw [State.putOut_outLen, BitVec.toNat_ofNat, Nat.mod_eq_of_lt h]

section
variable {u : State}

/-- Two inputs that differ in one byte. -/
theorem State.inSlice_eq_set {s : State} {k n : Nat} (hsame : ∀ i < n, i ≠ k → u.inByte i = s.inByte i) :
    u.inSlice 0 n = (s.inSlice 0 n).set k (u.inByte k) := by
  apply List.ext_getElem?
  intro i
  rw [List.getElem?_set, State.length_inSlice, State.getElem?_inSlice, State.getElem?_inSlice, Nat.sub_zero,
    Nat.zero_add]
  by_cases hik : k = i
  · rw [if_pos hik, hik]
  · rw [if_neg hik]
    exact ite_congr rfl (fun hi => congrArg some (hsame i hi (Ne.symm hik))) fun _ => rfl

/-- IN reads as the output that was copied into it. -/
theorem State.inSlice_of_copied {bytes : List Byte}
    (h : ∀ j < bytes.length, u.inBuf.read j = (Memory.ofBytes 0 bytes).read j) :
    u.inSlice 0 bytes.length = bytes := by
  apply List.ext_getElem?
  intro j
  rw [State.getElem?_inSlice, Nat.sub_zero, Nat.zero_add]
  split
  · next hj =>
    have hread : u.inBuf.read j = some bytes[j] := by
      rw [h j hj, Memory.read_ofBytes_zero, List.getElem?_eq_getElem hj]
    rw [State.inByte_of_read hread, List.getElem?_eq_getElem hj]
  · next hj => exact (List.getElem?_eq_none (Nat.not_lt.1 hj)).symm

/-- Part of a slice from 0. -/
theorem State.inSlice_eq_drop_take (u : State) (i : Nat) {j n : Nat} (hj : j ≤ n) :
    u.inSlice i j = ((u.inSlice 0 n).take j).drop i := by
  apply List.ext_getElem?
  intro k
  rw [List.getElem?_drop, List.getElem?_take, State.getElem?_inSlice, State.getElem?_inSlice, Nat.sub_zero,
    Nat.zero_add]
  by_cases hk : k < j - i
  · rw [if_pos hk, if_pos (by omega), if_pos (by omega)]
  · rw [if_neg hk, if_neg (by omega)]

theorem State.inByte_of_inSlice {bytes : List Byte} (h : u.inSlice 0 bytes.length = bytes) {i : Nat} {b : Byte}
    (hb : bytes[i]? = some b) : u.inByte i = b := by
  have hi : i < bytes.length := (List.getElem?_eq_some_iff.1 hb).1
  rw [← h, State.getElem?_inSlice, if_pos (by omega), Nat.zero_add] at hb
  exact Option.some.inj hb

end

end Sys2Proof.Machine
end

section
/-! The CRC-16 tells bytes apart: each shift can be undone, so one changed byte changes the CRC (spec/40_crc.md
R123). -/

namespace Sys2Proof.Machine

/-- The XOR with 0xA001 puts the bit shifted out into the top bit, which the shift leaves 0. -/
theorem crcShift_topBit (c : Half) : (crcShift c).getLsbD 15 = c.getLsbD 0 := by
  unfold crcShift
  split
  · next hbit => simpa using hbit
  · next hbit => simpa using hbit

theorem crcShift_injective : Function.Injective crcShift := by
  intro c d h
  have hbit : c.getLsbD 0 = d.getLsbD 0 := by rw [← crcShift_topBit, ← crcShift_topBit, h]
  have hrest : c >>> 1 = d >>> 1 := by
    unfold crcShift at h
    rw [hbit] at h
    split at h
    · exact (BitVec.xor_left_inj _).1 h
    · exact h
  apply BitVec.eq_of_getLsbD_eq
  intro i _
  cases i with
  | zero => exact hbit
  | succ i => simpa [Nat.add_comm] using congrArg (BitVec.getLsbD · i) hrest

theorem crcShifts_injective (k : Nat) : Function.Injective (crcShifts k) := by
  rw [funext (crcShifts_eq_iterate k)]
  exact crcShift_injective.iterate k

theorem crcStep_left_injective (b : Byte) : Function.Injective (crcStep · b) := fun _ _ h =>
  (BitVec.xor_left_inj _).1 (crcShifts_injective 8 h)

theorem crcStep_right_injective (c : Half) : Function.Injective (crcStep c) := fun a b h => by
  have hwide : a.setWidth 16 = b.setWidth 16 := (BitVec.xor_right_inj _).1 (crcShifts_injective 8 h)
  rw [← loByte_halfOf 0 a, ← loByte_halfOf 0 b, halfOf, halfOf, hwide]

theorem crc16_injective (bytes : List Byte) : Function.Injective (crc16 · bytes) := by
  induction bytes with
  | nil => exact Function.injective_id
  | cons b bytes ih => exact ih.comp (crcStep_left_injective b)

/-- One changed byte, wherever it stands, changes the CRC. -/
theorem crc16_set_ne (c : Half) {bytes : List Byte} {k : Nat} {b : Byte} (hk : k < bytes.length) (hb : b ≠ bytes[k]) :
    crc16 c (bytes.set k b) ≠ crc16 c bytes := by
  induction bytes generalizing c k with
  | nil => exact absurd hk k.not_lt_zero
  | cons a bytes ih =>
    cases k with
    | zero => exact fun h => hb (crcStep_right_injective c (crc16_injective bytes h))
    | succ k => exact ih (crcStep c a) (Nat.lt_of_succ_lt_succ hk) hb

end Sys2Proof.Machine
end

section
/-! RTU_WRAP, case by case, and the bytes of the frame it builds (spec/41_rtu.md R141, R142). -/

namespace Sys2Proof.Machine

section
variable {s : State}

theorem execRtuWrap_of_overflow (h : s.cfg.bufSize < s.inLen.toNat) :
    execRtuWrap s = .next (s.failOut .bufferOverflow (infoOf s.cfg.bufSize) (infoOf s.inLen.toNat)) :=
  if_pos h

theorem execRtuWrap_of_frame_overflow (hfits : s.inLen.toNat ≤ s.cfg.bufSize)
    (hbig : s.cfg.bufSize < s.inLen.toNat + 3) :
    execRtuWrap s = .next (s.failOut .bufferOverflow (infoOf s.cfg.bufSize) (infoOf (s.inLen.toNat + 3))) :=
  (if_neg (Nat.not_lt.2 hfits)).trans (if_pos hbig)

theorem execRtuWrap_of_fits (h : s.inLen.toNat + 3 ≤ s.cfg.bufSize) :
    execRtuWrap s = .next
      ({ s.putOut (rtuFrame s.deviceId (s.inSlice 0 s.inLen.toNat)) with
          calcCrc := crc16 crcInitial (s.deviceId :: s.inSlice 0 s.inLen.toNat) }.complete .ok 0 0) :=
  (if_neg (by omega)).trans (if_neg (by omega))

end

section
variable (d : Byte) (pdu : List Byte)

@[simp] theorem length_rtuFrame : (rtuFrame d pdu).length = pdu.length + 3 := by simp [rtuFrame]

theorem rtuFrame_getElem?_address : (rtuFrame d pdu)[0]? = some d := rfl

theorem rtuFrame_getElem?_pdu {j : Nat} (hj : j < pdu.length) : (rtuFrame d pdu)[1 + j]? = pdu[j]? := by
  rw [rtuFrame, List.cons_append, Nat.add_comm, List.getElem?_cons_succ, List.getElem?_append_left hj]

theorem rtuFrame_getElem?_crcLow :
    (rtuFrame d pdu)[pdu.length + 1]? = some (loByte (crc16 crcInitial (d :: pdu))) := by
  simp [rtuFrame]

theorem rtuFrame_getElem?_crcHigh :
    (rtuFrame d pdu)[pdu.length + 2]? = some (hiByte (crc16 crcInitial (d :: pdu))) := by
  simp [rtuFrame]

end

/-- Settles O15: the model's branches in R141's order; OUT is the frame, read through `Memory.read_ofBytes_zero`. -/
theorem rtuWrapBuildsTheFrame : Obligations.RtuWrapBuildsTheFrame := by
  intro s _ n crc
  refine ⟨fun hfits => ⟨Memory.ofBytes 0 (rtuFrame s.deviceId (s.inSlice 0 n)), ?_⟩, execRtuWrap_of_overflow,
    execRtuWrap_of_frame_overflow⟩
  have hlen : (s.inSlice 0 n).length = n := s.length_inSlice 0 n
  have hcrc : crc16 crcInitial (s.deviceId :: s.inSlice 0 n) = crc := by
    rw [crc16_eq_foldl, State.inSlice_zero]
    rfl
  have hframe : (rtuFrame s.deviceId (s.inSlice 0 n)).length = n + 3 := by rw [length_rtuFrame, hlen]
  simp only [Memory.read_ofBytes_zero]
  refine ⟨?_, rtuFrame_getElem?_address _ _, fun j hj => ?_, ?_, ?_, fun j hj => ?_⟩
  · rw [← hcrc, ← hframe]
    exact execRtuWrap_of_fits hfits
  · rw [rtuFrame_getElem?_pdu _ _ (hlen.symm ▸ hj), State.getElem?_inSlice, if_pos (by omega), Nat.zero_add]
  · have hlow := rtuFrame_getElem?_crcLow s.deviceId (s.inSlice 0 n)
    rwa [hlen, hcrc] at hlow
  · have hhigh := rtuFrame_getElem?_crcHigh s.deviceId (s.inSlice 0 n)
    rwa [hlen, hcrc] at hhigh
  · rw [List.getElem?_eq_none_iff, hframe]
    exact hj

end Sys2Proof.Machine
end

section
/-! RTU_UNWRAP, check by check (spec/41_rtu.md R143, R144). -/

namespace Sys2Proof.Machine

/-- The CRC that RTU_UNWRAP recomputes, over all but the frame's last two bytes. -/
def State.rtuCrc (s : State) : Half := crc16 crcInitial (s.inSlice 0 (s.inLen.toNat - 2))

/-- The CRC that the frame carries in its last two bytes, low byte first. -/
def State.rtuTrailer (s : State) : Half := halfOf (s.inByte (s.inLen.toNat - 1)) (s.inByte (s.inLen.toNat - 2))

/-- The frame passes RTU_UNWRAP's checks (1) to (3), and the CRC check is reached. -/
structure State.RtuAddressed (s : State) : Prop where
  fits : s.inLen.toNat ≤ s.cfg.bufSize
  long : 4 ≤ s.inLen.toNat
  address : s.inByte 0 = s.deviceId

section
variable {s t : State}

theorem execRtuUnwrap_of_overflow (h : s.cfg.bufSize < s.inLen.toNat) :
    execRtuUnwrap s = .next (s.failOut .bufferOverflow (infoOf s.cfg.bufSize) (infoOf s.inLen.toNat)) :=
  if_pos h

theorem execRtuUnwrap_of_short (hfits : s.inLen.toNat ≤ s.cfg.bufSize) (hshort : s.inLen.toNat < 4) :
    execRtuUnwrap s = .next (s.failOut .frameTooShort (infoOf 4) (infoOf s.inLen.toNat)) :=
  (if_neg (Nat.not_lt.2 hfits)).trans (if_pos hshort)

theorem execRtuUnwrap_of_otherAddress (hfits : s.inLen.toNat ≤ s.cfg.bufSize) (hlong : 4 ≤ s.inLen.toNat)
    (hother : s.inByte 0 ≠ s.deviceId) :
    execRtuUnwrap s = .next (s.failOut .unitIdMismatch (zext32 s.deviceId) (zext32 (s.inByte 0))) :=
  (if_neg (Nat.not_lt.2 hfits)).trans <| (if_neg (Nat.not_lt.2 hlong)).trans (if_pos hother)

/-- Past the first three checks only the CRC check is left. -/
theorem State.RtuAddressed.exec (h : s.RtuAddressed) :
    execRtuUnwrap s =
      if s.rtuCrc ≠ s.rtuTrailer then
        .next ({ s with calcCrc := s.rtuCrc }.failOut .crcMismatch (zext32 s.rtuCrc) (zext32 s.rtuTrailer))
      else
        .next ({ s.putOut (s.inSlice 1 (s.inLen.toNat - 2)) with calcCrc := s.rtuCrc }.complete .ok 0 0) :=
  (if_neg (Nat.not_lt.2 h.fits)).trans <| (if_neg (Nat.not_lt.2 h.long)).trans (if_neg (not_not_intro h.address))

theorem State.RtuAddressed.exec_of_badCrc (h : s.RtuAddressed) (hcrc : s.rtuCrc ≠ s.rtuTrailer) :
    execRtuUnwrap s =
      .next ({ s with calcCrc := s.rtuCrc }.failOut .crcMismatch (zext32 s.rtuCrc) (zext32 s.rtuTrailer)) :=
  h.exec.trans (if_pos hcrc)

theorem State.RtuAddressed.exec_of_goodCrc (h : s.RtuAddressed) (hcrc : s.rtuCrc = s.rtuTrailer) :
    execRtuUnwrap s =
      .next ({ s.putOut (s.inSlice 1 (s.inLen.toNat - 2)) with calcCrc := s.rtuCrc }.complete .ok 0 0) :=
  h.exec.trans (if_neg (not_not_intro hcrc))

/-- Only a frame that passes all four checks gives OK. -/
theorem rtuAddressed_and_goodCrc_of_ok (h : execRtuUnwrap s = .next t) (hok : t.errCode = .ok) :
    s.RtuAddressed ∧ s.rtuCrc = s.rtuTrailer := by
  simp only [execRtuUnwrap] at h
  split at h
  · cases h; cases hok
  split at h
  · cases h; cases hok
  split at h
  · cases h; cases hok
  split at h
  · cases h; cases hok
  · next hfits hlong haddress hcrc =>
    exact ⟨⟨Nat.not_lt.1 hfits, Nat.not_lt.1 hlong, not_not.1 haddress⟩, not_not.1 hcrc⟩

end

/-- Settles O16: one clause per branch of the model; the last one reads OUT through `Memory.read_ofBytes_zero`. -/
theorem rtuUnwrapChecksAndExtracts : Obligations.RtuUnwrapChecksAndExtracts := by
  intro s n crc rx fails
  have hrtuCrc : s.rtuCrc = crc := by
    rw [State.rtuCrc, crc16_eq_foldl, State.inSlice_zero]
    rfl
  rw [← hrtuCrc]
  refine ⟨execRtuUnwrap_of_overflow, execRtuUnwrap_of_short, execRtuUnwrap_of_otherAddress,
    fun hfits hlong haddress => State.RtuAddressed.exec_of_badCrc ⟨hfits, hlong, haddress⟩,
    fun hfits hlong haddress hcrc => ?_⟩
  have hlen : (s.inSlice 1 (n - 2)).length = n - 3 := s.length_inSlice 1 (n - 2)
  refine ⟨Memory.ofBytes 0 (s.inSlice 1 (n - 2)), ?_, fun j hj => ?_, fun j hj => ?_⟩
  · rw [← hlen]
    exact State.RtuAddressed.exec_of_goodCrc ⟨hfits, hlong, haddress⟩ hcrc
  · rw [Memory.read_ofBytes_zero, State.getElem?_inSlice, if_pos (by omega)]
  · rw [Memory.read_ofBytes_zero, State.getElem?_inSlice, if_neg (by omega)]

end Sys2Proof.Machine
end

section
/-! RTU_UNWRAP rejects every frame that differs in one byte from a frame it accepts (spec/41_rtu.md R144,
spec/40_crc.md R123 (c)). -/

namespace Sys2Proof.Machine

section
variable {s u : State} {k : Nat}

/-- One changed byte breaks the agreement of the CRC and the trailer, because it changes exactly one of them. -/
theorem rtuCrc_ne_rtuTrailer_of_changed (hcrc : s.rtuCrc = s.rtuTrailer) (hlong : 4 ≤ s.inLen.toNat)
    (hlen : u.inLen = s.inLen) (hk : k < s.inLen.toNat) (hne : u.inByte k ≠ s.inByte k)
    (hsame : ∀ i, i < s.inLen.toNat → i ≠ k → u.inByte i = s.inByte i) : u.rtuCrc ≠ u.rtuTrailer := by
  have hslice : u.inSlice 0 (s.inLen.toNat - 2) = (s.inSlice 0 (s.inLen.toNat - 2)).set k (u.inByte k) :=
    State.inSlice_eq_set fun i hi => hsame i (by omega)
  simp only [State.rtuCrc, State.rtuTrailer, hlen, hslice] at hcrc ⊢
  by_cases hdata : k < s.inLen.toNat - 2
  · have hhi := hsame (s.inLen.toNat - 1) (by omega) (by omega)
    have hlo := hsame (s.inLen.toNat - 2) (by omega) (by omega)
    rw [hhi, hlo, ← hcrc]
    refine crc16_set_ne crcInitial (by simpa using hdata) ?_
    simpa [State.inSlice] using hne
  · rw [List.set_eq_of_length_le (by rw [State.length_inSlice]; omega), hcrc]
    intro htrailer
    obtain ⟨hhi, hlo⟩ := halfOf_inj.1 htrailer
    obtain rfl | rfl : k = s.inLen.toNat - 1 ∨ k = s.inLen.toNat - 2 := by omega
    · exact hne hhi.symm
    · exact hne hlo.symm

end

/-- Settles O34: a changed address byte fails the third check; any other changed byte leaves the first three to pass
and breaks the agreement of CRC and trailer. -/
theorem rtuUnwrapDetectsEverySingleBitError : Obligations.RtuUnwrapDetectsEverySingleBitError := by
  intro s t u k b hexec hok hcfg hlen hdevice hk hb hflip hsame
  obtain ⟨⟨hfits, hlong, haddress⟩, hcrc⟩ := rtuAddressed_and_goodCrc_of_ok hexec hok
  have hne : u.inByte k ≠ s.inByte k := hflip ▸ byte_xor_bit_ne (s.inByte k) hb
  have hfits' : u.inLen.toNat ≤ u.cfg.bufSize := by rwa [hlen, hcfg]
  have hlong' : 4 ≤ u.inLen.toNat := by rwa [hlen]
  by_cases hk0 : k = 0
  · subst hk0
    have hother : u.inByte 0 ≠ u.deviceId := by rwa [hdevice, ← haddress]
    exact ⟨_, execRtuUnwrap_of_otherAddress hfits' hlong' hother, ⟨rfl, fun _ => rfl⟩, rfl⟩
  · have haddress' : u.inByte 0 = u.deviceId := by rw [hdevice, ← haddress, hsame 0 (by omega) (Ne.symm hk0)]
    have hbad := rtuCrc_ne_rtuTrailer_of_changed hcrc hlong hlen hk hne hsame
    exact ⟨_, State.RtuAddressed.exec_of_badCrc ⟨hfits', hlong', haddress'⟩ hbad, ⟨rfl, fun _ => rfl⟩,
      (if_neg hk0).symm⟩

end Sys2Proof.Machine
end

section
/-! An RTU frame copied from OUT to IN passes RTU_UNWRAP's checks and gives its PDU back (spec/41_rtu.md R145). -/

namespace Sys2Proof.Machine

/-- IN holds the RTU frame of `pdu` for this device, IN_LEN is the frame's length, and it fits. -/
structure State.HoldsRtuFrame (u : State) (pdu : List Byte) : Prop where
  fits : pdu.length + 3 ≤ u.cfg.bufSize
  length : u.inLen.toNat = pdu.length + 3
  bytes : u.inSlice 0 (rtuFrame u.deviceId pdu).length = rtuFrame u.deviceId pdu

section
variable {u : State} {pdu : List Byte}

theorem State.HoldsRtuFrame.addressed (h : u.HoldsRtuFrame pdu) (hpdu : 1 ≤ pdu.length) : u.RtuAddressed where
  fits := h.length ▸ h.fits
  long := by rw [h.length]; omega
  address := State.inByte_of_inSlice h.bytes (rtuFrame_getElem?_address _ _)

/-- All but the last two bytes of a frame are its address and its PDU. -/
theorem State.HoldsRtuFrame.inSlice_zero (h : u.HoldsRtuFrame pdu) :
    u.inSlice 0 (u.inLen.toNat - 2) = u.deviceId :: pdu := by
  rw [u.inSlice_eq_drop_take 0 (n := (rtuFrame u.deviceId pdu).length) (by simp [h.length]), h.bytes, h.length]
  simp [rtuFrame]

theorem State.HoldsRtuFrame.inSlice_one (h : u.HoldsRtuFrame pdu) : u.inSlice 1 (u.inLen.toNat - 2) = pdu := by
  rw [u.inSlice_eq_drop_take 1 le_rfl, h.inSlice_zero, List.take_of_length_le]
  · rfl
  · simp [h.length]

theorem State.HoldsRtuFrame.goodCrc (h : u.HoldsRtuFrame pdu) : u.rtuCrc = u.rtuTrailer := by
  have hlow := State.inByte_of_inSlice h.bytes (rtuFrame_getElem?_crcLow _ _)
  have hhigh := State.inByte_of_inSlice h.bytes (rtuFrame_getElem?_crcHigh _ _)
  rw [State.rtuCrc, h.inSlice_zero, State.rtuTrailer, h.length, Nat.add_sub_assoc (by decide), hhigh,
    Nat.add_sub_assoc (by decide), hlow, halfOf_hiByte_loByte]

end

/-- RTU_WRAP, and OUT copied to IN with its length, leave the PDU's frame in IN. -/
theorem holdsRtuFrame_of_wrapped {s t u : State} (hlegal : s.cfg.legal) (hfits : s.inLen.toNat + 3 ≤ s.cfg.bufSize)
    (hwrap : execRtuWrap s = .next t) (hcfg : u.cfg = t.cfg) (hdevice : u.deviceId = t.deviceId)
    (hlen : u.inLen = t.outLen) (hcopy : ∀ j, j < t.outLen.toNat → u.inBuf.read j = t.outBuf.read j) :
    u.HoldsRtuFrame (s.inSlice 0 s.inLen.toNat) := by
  obtain ⟨-, hmax⟩ := hlegal
  rw [execRtuWrap_of_fits hfits] at hwrap
  cases hwrap
  have hpdu : (s.inSlice 0 s.inLen.toNat).length = s.inLen.toNat := s.length_inSlice 0 _
  have hbytes := length_rtuFrame s.deviceId (s.inSlice 0 s.inLen.toNat)
  have hout := s.toNat_putOut_outLen (bytes := rtuFrame s.deviceId (s.inSlice 0 s.inLen.toNat)) (by omega)
  refine ⟨?_, ?_, ?_⟩
  · rw [hpdu, hcfg]
    exact hfits
  · rw [hlen]
    exact hout.trans hbytes
  · rw [show u.deviceId = s.deviceId from hdevice]
    exact State.inSlice_of_copied fun j hj => hcopy j (hout.symm ▸ hj)

/-- Settles O35: the copied frame passes all four checks, and its middle is the PDU; a frame of 3 bytes is too short. -/
theorem rtuRoundTrip : Obligations.RtuRoundTrip := by
  intro s t u hlegal hfits hwrap hcfg hdevice hlen hcopy
  have hframe := holdsRtuFrame_of_wrapped hlegal hfits hwrap hcfg hdevice hlen hcopy
  have hpdu : (s.inSlice 0 s.inLen.toNat).length = s.inLen.toNat := s.length_inSlice 0 _
  have hn := hframe.length
  by_cases hempty : s.inLen.toNat = 0
  · exact ⟨_, execRtuUnwrap_of_short (hn ▸ hframe.fits) (by omega), fun hpos => absurd hempty (Nat.ne_of_gt hpos),
      fun _ => rfl⟩
  · refine ⟨_, (hframe.addressed (by omega)).exec_of_goodCrc hframe.goodCrc, fun _ => ?_,
      fun hzero => absurd hzero hempty⟩
    rw [hframe.inSlice_one]
    refine ⟨rfl, ?_, fun j hj => ?_⟩
    · rw [State.complete_outLen]
      exact BitVec.eq_of_toNat_eq ((s.toNat_putOut_outLen (by omega)).trans hpdu)
    · rw [State.complete_outBuf]
      refine (Memory.read_ofBytes_zero _ j).trans ?_
      rw [State.getElem?_inSlice, if_pos (by omega), Nat.zero_add]

end Sys2Proof.Machine
end

section
/-! 16-bit values and their two bytes as numbers (spec/42_tcp_mbap.md R161, R164). -/

namespace Sys2Proof.Machine

theorem hiByte_ofNat (n : Nat) : hiByte (BitVec.ofNat 16 n) = BitVec.ofNat 8 (n / 256) := by
  apply BitVec.eq_of_toNat_eq
  simp only [hiByte, BitVec.extractLsb'_toNat, BitVec.toNat_ofNat, Nat.shiftRight_eq_div_pow]
  omega

theorem loByte_ofNat (n : Nat) : loByte (BitVec.ofNat 16 n) = BitVec.ofNat 8 n := by
  apply BitVec.eq_of_toNat_eq
  simp only [loByte, BitVec.extractLsb'_toNat, BitVec.toNat_ofNat, Nat.shiftRight_zero]
  omega

theorem halfOf_eq_ofNat (hi lo : Byte) : halfOf hi lo = BitVec.ofNat 16 (hi.toNat * 256 + lo.toNat) := by
  have hlo := lo.isLt
  rw [← halfOf_hiByte_loByte (BitVec.ofNat 16 _), hiByte_ofNat, loByte_ofNat, halfOf_inj]
  constructor <;> apply BitVec.eq_of_toNat_eq <;> rw [BitVec.toNat_ofNat] <;> omega

theorem toNat_halfOf (hi lo : Byte) : (halfOf hi lo).toNat = hi.toNat * 256 + lo.toNat := by
  have hhi := hi.isLt
  have hlo := lo.isLt
  rw [halfOf_eq_ofNat, BitVec.toNat_ofNat, Nat.mod_eq_of_lt (by omega)]

theorem ofNat_mod_byte (n : Nat) : BitVec.ofNat 8 (n % 256) = BitVec.ofNat 8 n := by
  apply BitVec.eq_of_toNat_eq
  simp

end Sys2Proof.Machine
end

section
/-! TCP_WRAP, case by case, and the bytes of the frame it builds (spec/42_tcp_mbap.md R160, R161). -/

namespace Sys2Proof.Machine

section
variable {s t : State}

theorem execTcpWrap_of_overflow (h : s.cfg.bufSize < s.inLen.toNat) :
    execTcpWrap s = .next (s.failOut .bufferOverflow (infoOf s.cfg.bufSize) (infoOf s.inLen.toNat)) :=
  if_pos h

theorem execTcpWrap_of_frame_overflow (hfits : s.inLen.toNat ≤ s.cfg.bufSize)
    (hbig : s.cfg.bufSize < s.inLen.toNat + 7) :
    execTcpWrap s = .next (s.failOut .bufferOverflow (infoOf s.cfg.bufSize) (infoOf (s.inLen.toNat + 7))) :=
  (if_neg (Nat.not_lt.2 hfits)).trans (if_pos hbig)

theorem execTcpWrap_of_fits (h : s.inLen.toNat + 7 ≤ s.cfg.bufSize) :
    execTcpWrap s = .next
      ({ s.putOut (tcpFrame (s.txid + 1) s.deviceId (s.inSlice 0 s.inLen.toNat)) with
          txid := s.txid + 1 }.complete .ok 0 0) :=
  (if_neg (by omega)).trans (if_neg (by omega))

/-- Only a frame that fits gives OK. -/
theorem fits_of_execTcpWrap_ok (h : execTcpWrap s = .next t) (hok : t.errCode = .ok) :
    s.inLen.toNat + 7 ≤ s.cfg.bufSize := by
  by_contra hbig
  rcases Nat.lt_or_ge s.cfg.bufSize s.inLen.toNat with hover | hfits
  · rw [execTcpWrap_of_overflow hover] at h
    cases h; cases hok
  · rw [execTcpWrap_of_frame_overflow hfits (by omega)] at h
    cases h; cases hok

end

section
variable (id : Half) (d : Byte) (pdu : List Byte)

@[simp] theorem length_tcpFrame : (tcpFrame id d pdu).length = pdu.length + 7 := by simp [tcpFrame]

/-- The six bytes before the unit id. -/
theorem tcpFrame_getElem?_mbap :
    (tcpFrame id d pdu)[0]? = some (hiByte id) ∧ (tcpFrame id d pdu)[1]? = some (loByte id) ∧
    (tcpFrame id d pdu)[2]? = some 0x00 ∧ (tcpFrame id d pdu)[3]? = some 0x00 ∧
    (tcpFrame id d pdu)[4]? = some (BitVec.ofNat 8 ((pdu.length + 1) / 256)) ∧
    (tcpFrame id d pdu)[5]? = some (BitVec.ofNat 8 ((pdu.length + 1) % 256)) := by
  rw [← hiByte_ofNat, ofNat_mod_byte, ← loByte_ofNat]
  exact ⟨rfl, rfl, rfl, rfl, rfl, rfl⟩

theorem tcpFrame_getElem?_unit : (tcpFrame id d pdu)[6]? = some d := rfl

theorem tcpFrame_drop_header : (tcpFrame id d pdu).drop 7 = pdu := rfl

theorem tcpFrame_getElem?_pdu (j : Nat) : (tcpFrame id d pdu)[7 + j]? = pdu[j]? := by
  rw [← List.getElem?_drop, tcpFrame_drop_header]

end

/-- Settles O17: the model's branches in R161's order; OUT is the frame, read through `Memory.read_ofBytes_zero`. -/
theorem tcpWrapAdvancesTxidAndBuildsTheFrame : Obligations.TcpWrapAdvancesTxidAndBuildsTheFrame := by
  intro s _ n id
  refine ⟨fun hfits => ⟨Memory.ofBytes 0 (tcpFrame id s.deviceId (s.inSlice 0 n)), ?_⟩, execTcpWrap_of_overflow,
    execTcpWrap_of_frame_overflow⟩
  have hlen : (s.inSlice 0 n).length = n := s.length_inSlice 0 n
  have hid : s.txid + 1 = id := by
    apply BitVec.eq_of_toNat_eq
    simp [id, BitVec.toNat_add]
  have hframe : (tcpFrame id s.deviceId (s.inSlice 0 n)).length = n + 7 := by rw [length_tcpFrame, hlen]
  obtain ⟨hidHi, hidLo, hproto2, hproto3, hlenHi, hlenLo⟩ := tcpFrame_getElem?_mbap id s.deviceId (s.inSlice 0 n)
  rw [hlen] at hlenHi hlenLo
  simp only [Memory.read_ofBytes_zero]
  refine ⟨?_, hidHi, hidLo, hproto2, hproto3, hlenHi, hlenLo, tcpFrame_getElem?_unit .., fun j hj => ?_,
    fun j hj => ?_⟩
  · rw [← hframe, ← hid]
    exact execTcpWrap_of_fits hfits
  · rw [tcpFrame_getElem?_pdu, State.getElem?_inSlice, if_pos (by omega), Nat.zero_add]
  · rw [List.getElem?_eq_none_iff, hframe]
    exact hj

end Sys2Proof.Machine
end

section
/-! The transaction ids that successive TCP_WRAPs emit (spec/42_tcp_mbap.md R162). -/

namespace Sys2Proof.Machine

/-- A TCP_WRAP that succeeds advances TXID and puts the new one at the start of OUT. -/
theorem execTcpWrap_ok_emits_txid {s t : State} (h : execTcpWrap s = .next t) (hok : t.errCode = .ok) :
    t.txid = s.txid + 1 ∧ t.outBuf.read 0 = some (hiByte t.txid) ∧ t.outBuf.read 1 = some (loByte t.txid) := by
  rw [execTcpWrap_of_fits (fits_of_execTcpWrap_ok h hok)] at h
  cases h
  exact ⟨rfl, rfl, rfl⟩

/-- Where each of `k` steps adds 1 to TXID, it is `k` in the end. -/
theorem txid_eq_ofNat {u : Nat → State} {k : Nat} (hzero : (u 0).txid = 0)
    (hsucc : ∀ j, j < k → (u (j + 1)).txid = (u j).txid + 1) : (u k).txid = BitVec.ofNat 16 k := by
  induction k with
  | zero => exact hzero
  | succ k ih =>
    rw [hsucc k (by omega), ih fun j hj => hsucc j (by omega)]
    exact (BitVec.ofNat_add k 1).symm

/-- Settles O27: TXID counts the successes, by induction, and the last of them put it into OUT. -/
theorem kthTcpWrapEmitsK : Obligations.KthTcpWrapEmitsK := by
  intro u k hzero hwraps
  have hemits : ∀ j, j < k → (u (j + 1)).txid = (u j).txid + 1 ∧
      (u (j + 1)).outBuf.read 0 = some (hiByte (u (j + 1)).txid) ∧
      (u (j + 1)).outBuf.read 1 = some (loByte (u (j + 1)).txid) := by
    intro j hj
    obtain ⟨before, htxid, hexec, hok⟩ := hwraps j hj
    exact htxid ▸ execTcpWrap_ok_emits_txid hexec hok
  have hid : (u k).txid = BitVec.ofNat 16 k := txid_eq_ofNat hzero fun j hj => (hemits j hj).1
  refine ⟨by rw [hid, BitVec.toNat_ofNat], fun hpos => ?_⟩
  obtain ⟨j, rfl⟩ := Nat.exists_eq_succ_of_ne_zero (Nat.ne_of_gt hpos)
  obtain ⟨-, hhi, hlo⟩ := hemits j (Nat.lt_succ_self j)
  rw [← hiByte_ofNat, ← loByte_ofNat, ← hid]
  exact ⟨hhi, hlo⟩

end Sys2Proof.Machine
end

section
/-! TCP_UNWRAP, check by check (spec/42_tcp_mbap.md R163, R164). -/

namespace Sys2Proof.Machine

/-- The frame's protocol id. -/
def State.tcpProtocol (s : State) : Half := halfOf (s.inByte 2) (s.inByte 3)

/-- The length that the frame declares: its unit id and its PDU. -/
def State.tcpDeclared (s : State) : Half := halfOf (s.inByte 4) (s.inByte 5)

/-- The frame passes TCP_UNWRAP's checks (1) to (4), and the checks of the declared length are reached. -/
structure State.TcpAddressed (s : State) : Prop where
  fits : s.inLen.toNat ≤ s.cfg.bufSize
  long : 7 ≤ s.inLen.toNat
  protocol : s.tcpProtocol = 0
  unit : s.inByte 6 = s.deviceId

section
variable {s : State}

theorem execTcpUnwrap_of_overflow (h : s.cfg.bufSize < s.inLen.toNat) :
    execTcpUnwrap s = .next (s.failOut .bufferOverflow (infoOf s.cfg.bufSize) (infoOf s.inLen.toNat)) :=
  if_pos h

theorem execTcpUnwrap_of_short (hfits : s.inLen.toNat ≤ s.cfg.bufSize) (hshort : s.inLen.toNat < 7) :
    execTcpUnwrap s = .next (s.failOut .frameTooShort (infoOf 7) (infoOf s.inLen.toNat)) :=
  (if_neg (Nat.not_lt.2 hfits)).trans (if_pos hshort)

theorem execTcpUnwrap_of_otherProtocol (hfits : s.inLen.toNat ≤ s.cfg.bufSize) (hlong : 7 ≤ s.inLen.toNat)
    (hother : s.tcpProtocol ≠ 0) :
    execTcpUnwrap s = .next (s.failOut .invalidProtocolId 0 (zext32 s.tcpProtocol)) :=
  (if_neg (Nat.not_lt.2 hfits)).trans <| (if_neg (Nat.not_lt.2 hlong)).trans (if_pos hother)

theorem execTcpUnwrap_of_otherUnit (hfits : s.inLen.toNat ≤ s.cfg.bufSize) (hlong : 7 ≤ s.inLen.toNat)
    (hprotocol : s.tcpProtocol = 0) (hother : s.inByte 6 ≠ s.deviceId) :
    execTcpUnwrap s = .next (s.failOut .unitIdMismatch (zext32 s.deviceId) (zext32 (s.inByte 6))) :=
  (if_neg (Nat.not_lt.2 hfits)).trans <| (if_neg (Nat.not_lt.2 hlong)).trans <|
    (if_neg (not_not_intro hprotocol)).trans (if_pos hother)

/-- Past the first four checks only those of the declared length are left. -/
theorem State.TcpAddressed.exec (h : s.TcpAddressed) :
    execTcpUnwrap s =
      if s.inLen.toNat < 6 + s.tcpDeclared.toNat then
        .next (s.failOut .frameTooShort (infoOf (6 + s.tcpDeclared.toNat)) (infoOf s.inLen.toNat))
      else if s.tcpDeclared = 0 then .next (s.failOut .mbapLengthZero (infoOf 1) (infoOf 0))
      else
        .next ({ s.putOut (s.inSlice 7 (6 + s.tcpDeclared.toNat)) with
          rxTxid := halfOf (s.inByte 0) (s.inByte 1) }.complete .ok 0 0) :=
  (if_neg (Nat.not_lt.2 h.fits)).trans <| (if_neg (Nat.not_lt.2 h.long)).trans <|
    (if_neg (not_not_intro h.protocol)).trans (if_neg (not_not_intro h.unit))

theorem State.TcpAddressed.exec_of_truncated (h : s.TcpAddressed) (hcut : s.inLen.toNat < 6 + s.tcpDeclared.toNat) :
    execTcpUnwrap s =
      .next (s.failOut .frameTooShort (infoOf (6 + s.tcpDeclared.toNat)) (infoOf s.inLen.toNat)) :=
  h.exec.trans (if_pos hcut)

/-- A declared length of 0 cannot make the frame too short, since it has at least 7 bytes. -/
theorem State.TcpAddressed.exec_of_zeroLength (h : s.TcpAddressed) (hzero : s.tcpDeclared.toNat = 0) :
    execTcpUnwrap s = .next (s.failOut .mbapLengthZero (infoOf 1) (infoOf 0)) := by
  have hlong := h.long
  rw [h.exec, if_neg (by omega), if_pos (BitVec.eq_of_toNat_eq hzero)]

theorem State.TcpAddressed.exec_of_complete (h : s.TcpAddressed) (hwhole : 6 + s.tcpDeclared.toNat ≤ s.inLen.toNat)
    (hpos : s.tcpDeclared.toNat ≠ 0) :
    execTcpUnwrap s =
      .next ({ s.putOut (s.inSlice 7 (6 + s.tcpDeclared.toNat)) with
        rxTxid := halfOf (s.inByte 0) (s.inByte 1) }.complete .ok 0 0) := by
  rw [h.exec, if_neg (Nat.not_lt.2 hwhole), if_neg fun hzero => hpos (congrArg BitVec.toNat hzero)]

end

/-- Settles O18: one clause per branch of the model; the last one reads OUT through `Memory.read_ofBytes_zero`. -/
theorem tcpUnwrapChecksAndExtracts : Obligations.TcpUnwrapChecksAndExtracts := by
  intro s n p declared fails
  have hdeclared : s.tcpDeclared.toNat = declared := toNat_halfOf _ _
  rw [← hdeclared]
  refine ⟨execTcpUnwrap_of_overflow, execTcpUnwrap_of_short, execTcpUnwrap_of_otherProtocol,
    execTcpUnwrap_of_otherUnit,
    fun hfits hlong hprotocol hunit => State.TcpAddressed.exec_of_truncated ⟨hfits, hlong, hprotocol, hunit⟩,
    fun hfits hlong hprotocol hunit => State.TcpAddressed.exec_of_zeroLength ⟨hfits, hlong, hprotocol, hunit⟩,
    fun hfits hlong hprotocol hunit hwhole hpos => ?_⟩
  have hlen : (s.inSlice 7 (6 + s.tcpDeclared.toNat)).length = s.tcpDeclared.toNat - 1 := by
    rw [State.length_inSlice]
    omega
  refine ⟨Memory.ofBytes 0 (s.inSlice 7 (6 + s.tcpDeclared.toNat)), ?_, fun j hj => ?_, fun j hj => ?_⟩
  · rw [← hlen, ← halfOf_eq_ofNat]
    exact State.TcpAddressed.exec_of_complete ⟨hfits, hlong, hprotocol, hunit⟩ hwhole hpos
  · rw [Memory.read_ofBytes_zero, State.getElem?_inSlice, if_pos (by omega)]
  · rw [Memory.read_ofBytes_zero, State.getElem?_inSlice, if_neg (by omega)]

end Sys2Proof.Machine
end

section
/-! A TCP frame copied from OUT to IN passes TCP_UNWRAP's checks and gives its PDU and its transaction id back
(spec/42_tcp_mbap.md R166). -/

namespace Sys2Proof.Machine

/-- IN holds the TCP frame of `pdu` with transaction id `id` for this device, IN_LEN is the frame's length, and it
fits. -/
structure State.HoldsTcpFrame (u : State) (id : Half) (pdu : List Byte) : Prop where
  fits : pdu.length + 7 ≤ u.cfg.bufSize
  length : u.inLen.toNat = pdu.length + 7
  bytes : u.inSlice 0 (tcpFrame id u.deviceId pdu).length = tcpFrame id u.deviceId pdu

section
variable {u : State} {id : Half} {pdu : List Byte}

/-- What the frame's header says, field by field. -/
theorem State.HoldsTcpFrame.header (h : u.HoldsTcpFrame id pdu) :
    halfOf (u.inByte 0) (u.inByte 1) = id ∧ u.tcpProtocol = 0 ∧ u.tcpDeclared.toNat = pdu.length + 1 := by
  obtain ⟨hidHi, hidLo, hproto2, hproto3, hlenHi, hlenLo⟩ := tcpFrame_getElem?_mbap id u.deviceId pdu
  have hlen := u.inLen.isLt
  rw [h.length] at hlen
  refine ⟨?_, ?_, ?_⟩
  · rw [State.inByte_of_inSlice h.bytes hidHi, State.inByte_of_inSlice h.bytes hidLo, halfOf_hiByte_loByte]
  · rw [State.tcpProtocol, State.inByte_of_inSlice h.bytes hproto2, State.inByte_of_inSlice h.bytes hproto3]
    rfl
  · rw [State.tcpDeclared, State.inByte_of_inSlice h.bytes hlenHi, State.inByte_of_inSlice h.bytes hlenLo,
      toNat_halfOf, BitVec.toNat_ofNat, BitVec.toNat_ofNat]
    omega

theorem State.HoldsTcpFrame.addressed (h : u.HoldsTcpFrame id pdu) : u.TcpAddressed where
  fits := h.length ▸ h.fits
  long := by rw [h.length]; omega
  protocol := by
    obtain ⟨-, hprotocol, -⟩ := h.header
    exact hprotocol
  unit := State.inByte_of_inSlice h.bytes (tcpFrame_getElem?_unit _ _ _)

theorem State.HoldsTcpFrame.inSlice_pdu (h : u.HoldsTcpFrame id pdu) : u.inSlice 7 (pdu.length + 7) = pdu := by
  have hframe : u.inSlice 0 (pdu.length + 7) = tcpFrame id u.deviceId pdu := by
    rw [← length_tcpFrame id u.deviceId pdu, h.bytes]
  rw [u.inSlice_eq_drop_take 7 le_rfl, hframe, List.take_of_length_le (length_tcpFrame ..).le, tcpFrame_drop_header]

/-- TCP_UNWRAP accepts the frame, and gives its PDU and its transaction id. -/
theorem State.HoldsTcpFrame.exec (h : u.HoldsTcpFrame id pdu) :
    execTcpUnwrap u = .next ({ u.putOut pdu with rxTxid := id }.complete .ok 0 0) := by
  obtain ⟨hid, -, hdeclared⟩ := h.header
  have hend : 6 + u.tcpDeclared.toNat = pdu.length + 7 := by omega
  rw [h.addressed.exec_of_complete (by rw [hend, h.length]) (by omega), hend, h.inSlice_pdu, hid]

end

/-- TCP_WRAP, and OUT copied to IN with its length, leave the PDU's frame in IN, with the TXID that the wrap left. -/
theorem holdsTcpFrame_of_wrapped {s t u : State} (hlegal : s.cfg.legal) (hfits : s.inLen.toNat + 7 ≤ s.cfg.bufSize)
    (hwrap : execTcpWrap s = .next t) (hcfg : u.cfg = t.cfg) (hdevice : u.deviceId = t.deviceId)
    (hlen : u.inLen = t.outLen) (hcopy : ∀ j, j < t.outLen.toNat → u.inBuf.read j = t.outBuf.read j) :
    u.HoldsTcpFrame t.txid (s.inSlice 0 s.inLen.toNat) := by
  obtain ⟨-, hmax⟩ := hlegal
  rw [execTcpWrap_of_fits hfits] at hwrap
  cases hwrap
  have hpdu : (s.inSlice 0 s.inLen.toNat).length = s.inLen.toNat := s.length_inSlice 0 _
  have hbytes := length_tcpFrame (s.txid + 1) s.deviceId (s.inSlice 0 s.inLen.toNat)
  have hout := s.toNat_putOut_outLen (bytes := tcpFrame (s.txid + 1) s.deviceId (s.inSlice 0 s.inLen.toNat)) (by omega)
  refine ⟨?_, ?_, ?_⟩
  · rw [hpdu, hcfg]
    exact hfits
  · rw [hlen]
    exact hout.trans hbytes
  · rw [show u.deviceId = s.deviceId from hdevice]
    exact State.inSlice_of_copied fun j hj => hcopy j (hout.symm ▸ hj)

/-- Settles O36: the copied frame passes all six checks, its PDU is the wrapped one, and its transaction id is the TXID
that the wrap left. -/
theorem tcpRoundTrip : Obligations.TcpRoundTrip := by
  intro s t u hlegal hfits hwrap hcfg hdevice hlen htxid hcopy
  have hframe := holdsTcpFrame_of_wrapped hlegal hfits hwrap hcfg hdevice hlen hcopy
  have hpdu : (s.inSlice 0 s.inLen.toNat).length = s.inLen.toNat := s.length_inSlice 0 _
  refine ⟨_, hframe.exec, rfl, ?_, fun j hj => ?_, htxid.symm, htxid⟩
  · rw [State.complete_outLen]
    exact BitVec.eq_of_toNat_eq ((u.toNat_putOut_outLen (by omega)).trans hpdu)
  · rw [State.complete_outBuf]
    refine (Memory.read_ofBytes_zero _ j).trans ?_
    rw [State.getElem?_inSlice, if_pos (by omega), Nat.zero_add]

end Sys2Proof.Machine
end

section
/-! One turn and one step, agent by agent, by the oldest input (spec/43_control.md R181, R182). -/

namespace Sys2Proof.Machine

section
variable {s : State}

theorem turn_of_nil (hin : s.inputs = []) : turn s = engineTurn s := by rw [turn, hin]

theorem turn_of_cons {i : Input} {rest : List Input} (hin : s.inputs = i :: rest) :
    turn s = inputTurn i { s with inputs := rest } := by rw [turn, hin]

/-- The engine moves on the block as it is, its slot used up. -/
theorem step_of_engineMoves (hm : s.EngineMoves) :
    step s = mapNext State.tick (performPending { s with inputs := s.inputs.tail }) := by
  obtain ⟨hb, hin⟩ := hm
  have hturn : turn s = engineTurn { s with inputs := s.inputs.tail } := by
    rcases hin with hnil | ⟨rest, hq⟩
    · have hs : { s with inputs := s.inputs.tail } = s := by rw [hnil, List.tail_nil, ← hnil]
      rw [hs, turn_of_nil hnil]
    · rw [turn_of_cons hq, hq, List.tail_cons]
      rfl
  rw [step, hturn, engineTurn_of_busy (s := { s with inputs := s.inputs.tail }) hb]

/-- The host's turn is its access. -/
theorem step_of_access {a : Access} {rest : List Input} (hin : s.inputs = .access a :: rest) :
    step s = .next (State.busAccess { s with inputs := rest } a).tick := by
  rw [step, turn_of_cons hin]
  rfl

theorem performPending_of_instr {i : Instr} (hd : decode s.pending = .instr i) : performPending s = exec i s := by
  rw [performPending, hd]

theorem performPending_of_illegal {why : IllegalWord} (hd : decode s.pending = .illegal why) :
    performPending s = .next (s.complete .illegalCommand 0 s.pending) := by
  rw [performPending, hd]
  rfl

end

/-- Settles O6: the engine performs what PENDING decodes to, and an access slot is the access. -/
theorem stepRunsTheDecodedCommand : Obligations.StepRunsTheDecodedCommand := by
  refine ⟨fun s i hb hd => ⟨fun hnil => ?_, fun rest hq => ?_⟩, fun s a rest hin => step_of_access hin⟩
  · rw [step, turn_of_nil hnil, engineTurn_of_busy hb, performPending_of_instr hd]
  · rw [step_of_engineMoves ⟨hb, .inr ⟨rest, hq⟩⟩, hq, List.tail_cons]
    exact congrArg _ (performPending_of_instr (s := { s with inputs := rest }) hd)

/-- A command word given as the table's 32-bit number is that word. -/
theorem tableWord_toNat (w : Word) : tableWord 32 w.toNat = w := by
  rw [tableWord, Nat.mod_eq_of_lt w.isLt, BitVec.ofNat_toNat, BitVec.setWidth_eq]

/-- Settles O7: the placed word decodes to its command, and the quiet slot in front gives the engine the step. -/
theorem placedCommandRunsNext : Obligations.PlacedCommandRunsNext := by
  intro s i
  rw [State.withFetchWord, tableWord_toNat]
  obtain ⟨hengine, -⟩ := stepRunsTheDecodedCommand
  obtain ⟨-, hquiet⟩ := hengine (placeCommand s (encode i)) i rfl (decode_encode i)
  exact hquiet s.inputs rfl

/-- Settles O8: such a word decodes as illegal, and the engine completes it with its report alone. -/
theorem illegalWordPostsItself : Obligations.IllegalWordPostsItself := by
  intro s hb hfields
  obtain ⟨why, hd⟩ := decode_illegal_iff.2 hfields
  exact (engineTurn_of_busy hb).trans (performPending_of_illegal hd)

/-- Settles O9: an idle engine answers the state itself, so the step only counts. -/
theorem idleEngineChangesNothing : Obligations.IdleEngineChangesNothing := by
  intro s hb
  refine ⟨engineTurn_of_idle hb, fun hnil => ?_⟩
  rw [step, turn_of_nil hnil, engineTurn_of_idle hb]
  rfl

end Sys2Proof.Machine
end

section
/-! NOP, SOFT_RESET and the CMD write (spec/43_control.md R180, R185, R186). -/

namespace Sys2Proof.Machine

/-- Settles O11: NOP is the completion alone. -/
theorem nopOnlyClearsTheReport : Obligations.NopOnlyClearsTheReport := fun _ => rfl

/-- IRQ with DONE = 1 and WERR = 0 is INT_EN.DONE_IE (spec/60_exceptions.md R210). -/
theorem State.irq_of_done {s : State} (hd : s.done = true) (hw : s.werr = false) : s.irq = s.intEn.getLsbD 0 := by
  rw [State.irq, hd, hw, Bool.true_and, Bool.false_and, Bool.or_false, State.doneIE]

/-- Settles O19: the next state is the cleared one, completed with OK. -/
theorem softResetRestoresAllButIntEn : Obligations.SoftResetRestoresAllButIntEn := by
  intro s
  refine ⟨s.softCleared.complete .ok 0 0, rfl, ⟨rfl, rfl, rfl, rfl, rfl⟩, rfl, rfl, rfl, rfl, rfl, rfl, rfl, rfl, rfl,
    fun i => ⟨Memory.read_nil i, Memory.read_nil i⟩, rfl, ?_⟩
  exact State.irq_of_done rfl rfl

/-- Settles O49: an idle write at 0x0008 is the latch, and a busy one is any dropped write. -/
theorem cmdWriteLatchesAndStarts : Obligations.CmdWriteLatchesAndStarts := by
  intro s v t
  have ht : t = { s.hostWrite 0x0008 v with response := some .ack } := busAccess_write s v rfl
  refine ⟨fun hb => ?_, fun hb => ?_⟩
  · have hlatch : s.hostWrite 0x0008 v = s.latch v := State.hostWrite_of_idle v hb 0x0008
    rw [ht, hlatch]
    rfl
  · exact busyWriteOnlySetsWerr s 0x0008 v hb rfl

end Sys2Proof.Machine
end

section
/-! A latched command waits unchanged through the accesses that come first, and is then performed (spec/43_control.md
R181, R182). -/

namespace Sys2Proof.Machine

/-- All that accesses change of a busy block: WERR, and the model's inputs, response and step number. -/
def State.delayed (s : State) (inputs : List Input) (werr : Bool) (response : Option Response) (draw : Nat) : State :=
  { s with inputs := inputs, werr := werr, response := response, draw := draw }

/-- An access to a busy block is a step that only delays the command. -/
theorem step_access_of_busy {s : State} (hb : s.busy = true) {a : Access} {rest : List Input}
    (hin : s.inputs = .access a :: rest) :
    ∃ werr response, step s = .next (s.delayed rest werr response (s.draw + 1)) := by
  rw [step_of_access hin, busAccess_of_busy (s := { s with inputs := rest }) hb a]
  exact ⟨_, _, rfl⟩

/-- Without a hardware reset the engine's slot comes after at most as many accesses as there are inputs. -/
theorem core_run_until_engineMoves {s : State} (hb : s.busy = true) (hreset : Input.hardReset ∉ s.inputs) :
    ∃ k inputs werr response draw, k ≤ s.inputs.length ∧
      core.run k s = .next (s.delayed inputs werr response draw) ∧
      (s.delayed inputs werr response draw).EngineMoves := by
  induction hin : s.inputs generalizing s with
  | nil => exact ⟨0, _, _, _, _, le_rfl, rfl, hb, .inl hin⟩
  | cons i rest ih =>
    cases i with
    | access a =>
      obtain ⟨werr, response, hstep⟩ := step_access_of_busy hb hin
      have hrest : Input.hardReset ∉ rest := fun hmem => hreset (hin ▸ List.mem_cons_of_mem _ hmem)
      obtain ⟨k, inputs, werr', response', draw, hk, hrun, hm⟩ :=
        ih (s := s.delayed rest werr response (s.draw + 1)) hb hrest rfl
      exact ⟨k + 1, inputs, werr', response', draw, Nat.succ_le_succ hk, (core_run_succ hstep k).trans hrun, hm⟩
    | quiet => exact ⟨0, _, _, _, _, Nat.zero_le _, rfl, hb, .inr ⟨rest, hin⟩⟩
    | hardReset => exact absurd (hin ▸ List.mem_cons_self) hreset

/-- Settles O10: the accesses that come first delay the command, and the engine's slot completes it. -/
theorem latchedCommandCompletes : Obligations.LatchedCommandCompletes := by
  intro s hb hreset
  obtain ⟨k, inputs, werr, response, draw, hk, hrun, hm⟩ := core_run_until_engineMoves hb hreset
  have hstep := step_of_engineMoves hm
  obtain ⟨t, ht, hbusy, hdone⟩ := performPending_completes
    { s.delayed inputs werr response draw with inputs := (s.delayed inputs werr response draw).inputs.tail }
  exact ⟨k, s.delayed inputs werr response draw, t.tick, hk, hrun, hb, rfl, rfl, rfl, rfl, rfl, rfl, rfl, hstep,
    by rw [hstep, ht, mapNext_next], hbusy, hdone⟩

end Sys2Proof.Machine
end

section
/-! No command reads a result: two blocks with the same operands take the same branches and post the same values
(spec/43_control.md R188, spec/30_encoding.md R91). -/

namespace Sys2Proof.Machine

/-- The operands of `s`, and everything else of `r`. -/
def State.withRest (s r : State) : State :=
  { r with
    cfg := s.cfg, inLen := s.inLen, inBuf := s.inBuf, deviceId := s.deviceId, crcAcc := s.crcAcc, txid := s.txid,
    draw := s.draw }

theorem State.SameOperands.eq_withRest {s u : State} (h : s.SameOperands u) : u = s.withRest u := by
  obtain ⟨hcfg, hinLen, hinBuf, hdeviceId, hcrcAcc, htxid, hdraw⟩ := h
  rw [State.withRest, ← hcfg, ← hinLen, ← hinBuf, ← hdeviceId, ← hcrcAcc, ← htxid, ← hdraw]

/-- After the runs from `s` to `t` and from `u` to `v`, `f` is the same in both, or neither run changed it. -/
def SameOrKept {α : Type} (f : State → α) (s u t v : State) : Prop := f v = f t ∨ f v = f u ∧ f t = f s

/-- The output buffer with its length. -/
def State.out (s : State) : Memory × Half := (s.outBuf, s.outLen)

/-- The runs from `s` to `t` and from `u` to `v` post one report, leave the same operands, and agree in every result
that they write. -/
structure SameResults (s u t v : State) : Prop where
  report : ∃ code info0 info1, t.Posted code info0 info1 ∧ v.Posted code info0 info1
  operands : t.SameOperands v
  calcCrc : SameOrKept State.calcCrc s u t v
  rxTxid : SameOrKept State.rxTxid s u t v
  out : SameOrKept State.out s u t v

/-- Both outcomes are next states, with the same results. -/
def SameOutcome (s u : State) (x y : Host.Outcome State Fault Refusal) : Prop :=
  ∃ t v, x = .next t ∧ y = .next v ∧ SameResults s u t v

section
variable {s u t v : State}

theorem SameOrKept.same {α : Type} {f : State → α} (h : f v = f t) : SameOrKept f s u t v := .inl h

theorem SameOrKept.kept {α : Type} {f : State → α} (hv : f v = f u) (ht : f t = f s) : SameOrKept f s u t v :=
  .inr ⟨hv, ht⟩

/-- Both runs take the branch that their common operands choose. -/
theorem SameOutcome.ite {c : Prop} [Decidable c] {x y x' y' : Host.Outcome State Fault Refusal}
    (hthen : SameOutcome s u x y) (helse : SameOutcome s u x' y') :
    SameOutcome s u (if c then x else x') (if c then y else y') := by
  split
  · exact hthen
  · exact helse

/-- Two completions with one report, of states that agree already. -/
theorem SameOutcome.complete {code : ErrCode} {info0 info1 : Word} (hoperands : t.SameOperands v)
    (hcalc : SameOrKept State.calcCrc s u t v) (hrx : SameOrKept State.rxTxid s u t v)
    (hout : SameOrKept State.out s u t v) :
    SameOutcome s u (.next (t.complete code info0 info1)) (.next (v.complete code info0 info1)) :=
  ⟨_, _, rfl, rfl, ⟨code, info0, info1, ⟨rfl, rfl, rfl, rfl, rfl⟩, ⟨rfl, rfl, rfl, rfl, rfl⟩⟩, hoperands, hcalc, hrx,
    hout⟩

/-- A failed framing command empties the output in both runs. -/
theorem SameOutcome.failOut {code : ErrCode} {info0 info1 : Word} (hoperands : t.SameOperands v)
    (hcalc : SameOrKept State.calcCrc s u t v) (hrx : SameOrKept State.rxTxid s u t v) :
    SameOutcome s u (.next (t.failOut code info0 info1)) (.next (v.failOut code info0 info1)) :=
  .complete (t := { t with outLen := 0, outBuf := [] }) (v := { v with outLen := 0, outBuf := [] }) hoperands hcalc hrx
    (.same rfl)

end

/-- The outcome of `f` depends on the operands alone. -/
def ReadsOnlyOperands (f : State → Host.Outcome State Fault Refusal) : Prop :=
  ∀ s r : State, SameOutcome s (s.withRest r) (f s) (f (s.withRest r))

section
variable (s r : State) {code : ErrCode} {info0 info1 : Word}

theorem State.sameOperands_withRest : s.SameOperands (s.withRest r) := ⟨rfl, rfl, rfl, rfl, rfl, rfl, rfl⟩

/-- A completion that writes the report alone. -/
theorem SameOutcome.reported :
    SameOutcome s (s.withRest r) (.next (s.complete code info0 info1))
      (.next ((s.withRest r).complete code info0 info1)) :=
  .complete (s.sameOperands_withRest r) (.kept rfl rfl) (.kept rfl rfl) (.kept rfl rfl)

/-- A failure before anything else is written. -/
theorem SameOutcome.failed :
    SameOutcome s (s.withRest r) (.next (s.failOut code info0 info1))
      (.next ((s.withRest r).failOut code info0 info1)) :=
  .failOut (s.sameOperands_withRest r) (.kept rfl rfl) (.kept rfl rfl)

end

theorem execCrcInit_readsOnlyOperands : ReadsOnlyOperands execCrcInit := fun _ _ =>
  .complete ⟨rfl, rfl, rfl, rfl, rfl, rfl, rfl⟩ (.kept rfl rfl) (.kept rfl rfl) (.kept rfl rfl)

theorem execCrcUpdate_readsOnlyOperands : ReadsOnlyOperands execCrcUpdate := fun s r =>
  .ite (.reported s r) <|
    .complete ⟨rfl, rfl, rfl, rfl, rfl, rfl, rfl⟩ (.kept rfl rfl) (.kept rfl rfl) (.kept rfl rfl)

theorem execRtuWrap_readsOnlyOperands : ReadsOnlyOperands execRtuWrap := fun s r =>
  .ite (.failed s r) <| .ite (.failed s r) <|
    .complete (s.sameOperands_withRest r) (.same rfl) (.kept rfl rfl) (.same rfl)

/-- A CRC mismatch posts the computed CRC, a good frame its PDU too. -/
theorem execRtuUnwrap_readsOnlyOperands : ReadsOnlyOperands execRtuUnwrap := fun s r =>
  .ite (.failed s r) <| .ite (.failed s r) <| .ite (.failed s r) <|
    .ite (.failOut (s.sameOperands_withRest r) (.same rfl) (.kept rfl rfl))
      (.complete (s.sameOperands_withRest r) (.same rfl) (.kept rfl rfl) (.same rfl))

theorem execTcpWrap_readsOnlyOperands : ReadsOnlyOperands execTcpWrap := fun s r =>
  .ite (.failed s r) <| .ite (.failed s r) <|
    .complete ⟨rfl, rfl, rfl, rfl, rfl, rfl, rfl⟩ (.kept rfl rfl) (.kept rfl rfl) (.same rfl)

theorem execTcpUnwrap_readsOnlyOperands : ReadsOnlyOperands execTcpUnwrap := fun s r =>
  .ite (.failed s r) <| .ite (.failed s r) <| .ite (.failed s r) <| .ite (.failed s r) <| .ite (.failed s r) <|
    .ite (.failed s r) <| .complete (s.sameOperands_withRest r) (.kept rfl rfl) (.same rfl) (.same rfl)

/-- SOFT_RESET writes the same reset values over whatever stood there. -/
theorem execSoftReset_readsOnlyOperands : ReadsOnlyOperands execSoftReset := fun _ _ =>
  .complete ⟨rfl, rfl, rfl, rfl, rfl, rfl, rfl⟩ (.same rfl) (.same rfl) (.same rfl)

theorem exec_readsOnlyOperands (i : Instr) : ReadsOnlyOperands (exec i) :=
  match i with
  | .nop => fun s r => .reported s r
  | .crcInit => execCrcInit_readsOnlyOperands
  | .crcUpdate => execCrcUpdate_readsOnlyOperands
  | .rtuWrap => execRtuWrap_readsOnlyOperands
  | .rtuUnwrap => execRtuUnwrap_readsOnlyOperands
  | .tcpWrap => execTcpWrap_readsOnlyOperands
  | .tcpUnwrap => execTcpUnwrap_readsOnlyOperands
  | .softReset => execSoftReset_readsOnlyOperands

/-- Settles O25: the second block is the first one's operands with a rest that no command reads. -/
theorem noCommandReadsAResult : Obligations.NoCommandReadsAResult := by
  intro i s u t v hsu ht hv
  obtain ⟨t', v', ht', hv', hsame⟩ := exec_readsOnlyOperands i s u
  rw [← hsu.eq_withRest] at hv' hsame
  obtain rfl : t = t' := Host.Outcome.next.inj (ht.symm.trans ht')
  obtain rfl : v = v' := Host.Outcome.next.inj (hv.symm.trans hv')
  obtain ⟨code, info0, info1, ⟨htCode, ht0, ht1, htBusy, htDone⟩, hvCode, hv0, hv1, hvBusy, hvDone⟩ := hsame.report
  obtain ⟨-, hinLen, hinBuf, hdeviceId, hcrcAcc, htxid, -⟩ := hsame.operands
  refine ⟨hvCode.trans htCode.symm, hv0.trans ht0.symm, hv1.trans ht1.symm, hvBusy.trans htBusy.symm,
    hvDone.trans htDone.symm, hcrcAcc, htxid, hdeviceId, hinLen, hinBuf, hsame.calcCrc, hsame.rxTxid, ?_⟩
  rcases hsame.out with hout | ⟨houtV, houtT⟩
  · exact .inl (Prod.mk.inj hout)
  · obtain ⟨hvBuf, hvLen⟩ := Prod.mk.inj houtV
    obtain ⟨htBuf, htLen⟩ := Prod.mk.inj houtT
    exact .inr ⟨hvBuf, hvLen, htBuf, htLen⟩

end Sys2Proof.Machine
end

section
/-! What an engine turn that fails leaves (spec/60_exceptions.md R201). -/

namespace Sys2Proof.Machine

/-- What the words of the four framing commands decode to. -/
def framingWords : List Decoded := framingCommands.map .instr

theorem decode_mem_framingWords {w : Word} {i : Instr} (hd : decode w = .instr i) :
    decode w ∈ framingWords ↔ i ∈ framingCommands := by
  simp [hd, framingWords]

/-- `FailedTurn s t`: the engine's turn may take `s` to `t` with ERRCODE other than OK. -/
inductive FailedTurn (s : State) : State → Prop where
  /-- nothing but the report: the overflow of CRC_UPDATE (spec/40_crc.md R126), and every illegal word
  (spec/43_control.md R187) -/
  | reported (hd : decode s.pending ∉ framingWords) (code : ErrCode) (info0 info1 : Word) :
      FailedTurn s (s.complete code info0 info1)
  | noOutput (hd : decode s.pending ∈ framingWords) (code : ErrCode) (info0 info1 : Word) :
      FailedTurn s (s.failOut code info0 info1)
  /-- RTU_UNWRAP at its CRC check (spec/41_rtu.md R144) -/
  | crcFailed (hd : decode s.pending = .instr .rtuUnwrap) (crc : Half) (info0 info1 : Word) :
      FailedTurn s ({ s with calcCrc := crc }.failOut .crcMismatch info0 info1)

theorem State.failOut_noOutput (s : State) (code : ErrCode) (info0 info1 : Word) :
    (s.failOut code info0 info1).NoOutput := ⟨rfl, Memory.read_nil⟩

section
variable {s t : State}

/-- The other ways to complete post OK. -/
theorem CommandOutcome.failedTurn {i : Instr} (h : CommandOutcome s i t) (hd : decode s.pending = .instr i)
    (hf : t.errCode ≠ .ok) : FailedTurn s t := by
  cases h with
  | reported hi _ => exact .reported (mt (decode_mem_framingWords hd).1 (not_framing_of_reported i hi)) ..
  | failed hi _ _ => exact .noOutput ((decode_mem_framingWords hd).2 hi) ..
  | crcFailed _ => exact .crcFailed hd ..
  | _ => exact absurd rfl hf

theorem failedTurn_of_engineTurn (hb : s.busy = true) (h : engineTurn s = .next t) (hf : t.errCode ≠ .ok) :
    FailedTurn s t := by
  rw [engineTurn_of_busy hb] at h
  rcases performPending_cases h with ⟨i, hd, hexec⟩ | ⟨why, hd, rfl⟩
  · exact (exec_outcome hexec).failedTurn hd hf
  · exact .reported (by simp [hd, framingWords]) ..

end

/-- Settles O24: of the three ways to fail, only the one at the CRC check writes CALC_CRC, and the two of the framing
commands empty OUT. -/
theorem failedCommandChangesOnlyItsReport : Obligations.FailedCommandChangesOnlyItsReport := by
  intro s t hb h hf
  cases failedTurn_of_engineTurn hb h hf with
  | reported hd code info0 info1 =>
    exact ⟨rfl, rfl, rfl, rfl, rfl, rfl, rfl, rfl, rfl, rfl, absurd rfl, fun hmem => absurd hmem hd, fun _ => ⟨rfl, rfl⟩⟩
  | noOutput hd code info0 info1 =>
    exact ⟨rfl, rfl, rfl, rfl, rfl, rfl, rfl, rfl, rfl, rfl, absurd rfl, fun _ => s.failOut_noOutput code info0 info1,
      absurd hd⟩
  | crcFailed hd crc info0 info1 =>
    have hmem : decode s.pending ∈ framingWords := (decode_mem_framingWords hd).2 (by decide)
    exact ⟨rfl, rfl, rfl, rfl, rfl, rfl, rfl, rfl, rfl, rfl, fun _ => ⟨hd, rfl⟩, fun _ => State.failOut_noOutput ..,
      absurd hmem⟩

end Sys2Proof.Machine
end

section
/-! The level of IRQ, and the idle writes that clear it (spec/60_exceptions.md R210). -/

namespace Sys2Proof.Machine

theorem State.irq_iff {s : State} : s.irq = true ↔
    (s.done = true ∧ s.intEn.getLsbD 0 = true) ∨ (s.werr = true ∧ s.intEn.getLsbD 1 = true) := by
  simp [State.irq, State.doneIE, State.werrIE]

section
variable {s : State}

theorem State.irq_of_not_done (hd : s.done = false) : s.irq = (s.werr && s.intEn.getLsbD 1) := by
  rw [State.irq, hd, Bool.false_and, Bool.false_or, State.werrIE]

theorem State.irq_of_acknowledged (hd : s.done = false) (hw : s.werr = false) : s.irq = false := by
  rw [State.irq_of_not_done hd, hw, Bool.false_and]

theorem State.irq_of_masked (hi : s.intEn = 0) : s.irq = false := by
  simp [State.irq, State.doneIE, State.werrIE, hi]

/-- IRQ does not depend on the answer to the write (log 5). -/
theorem irq_busAccess_writeReg (hb : s.busy = false) (r : Reg) (v : Word) :
    (s.busAccess { offset := r.offset, size := 4, op := .write v }).irq = (s.writeReg r v).irq := by
  rw [busAccess_write s v r.offset_aligned, State.hostWrite_of_idle v hb, locate_reg]
  rfl

end

/-- Settles O48: the STATUS write clears both flags, the INT_EN write both enables, and the CMD write DONE alone. -/
theorem irqLevelAndClearing : Obligations.IrqLevelAndClearing := by
  refine ⟨fun s => State.irq_iff, fun s hb => ⟨?_, ?_, fun v => ?_⟩⟩
  · exact (irq_busAccess_writeReg hb .status _).trans
      (State.irq_of_acknowledged (Bool.and_false s.done) (Bool.and_false s.werr))
  · exact (irq_busAccess_writeReg hb .intEn _).trans (State.irq_of_masked rfl)
  · exact (irq_busAccess_writeReg hb .cmd v).trans (State.irq_of_not_done rfl)

end Sys2Proof.Machine
end

section
/-! The two resets (spec/70_reset_and_hazards.md R230, R231). -/

namespace Sys2Proof.Machine

section
variable (s : State)

/-- SOFT_RESET's own meaning (spec/43_control.md R186). -/
theorem exec_softReset : exec .softReset s = .next (s.softCleared.complete .ok 0 0) := rfl

/-- What SOFT_RESET clears and what its completion posts are together the values hardware reset gives, DONE = 1 apart;
INT_EN and the answer to the last access are kept. -/
theorem State.softCleared_complete_eq_hardReset :
    s.softCleared.complete .ok 0 0 =
      { s.hardReset with intEn := s.intEn, done := true, response := s.response } := rfl

end

/-- INT_EN = 0 after reset, so IRQ is masked. -/
theorem State.resetWith_irq (c : Config) : (State.resetWith c).irq = false := State.irq_of_masked rfl

/-- The platform's turn is the reset, which reads nothing of `s` but the configuration and the step number. -/
theorem step_of_hardReset {s : State} {rest : List Input} (hin : s.inputs = .hardReset :: rest) :
    step s = .next { State.resetWith s.cfg with inputs := rest, draw := s.draw + 1 } := by
  rw [step, turn_of_cons hin]
  rfl

/-- Settles O37: the soft reset's next state is the cleared one, completed, and that is the hardware reset's but for
the fields it keeps and DONE. -/
theorem softResetReachesTheResetState : Obligations.SoftResetReachesTheResetState := by
  intro s t h
  obtain rfl : s.softCleared.complete .ok 0 0 = t := Host.Outcome.next.inj ((exec_softReset s).symm.trans h)
  rw [State.softCleared_complete_eq_hardReset]
  rfl

/-- Settles O38: the platform's turn reads nothing of the command in flight, and the reset state masks IRQ. -/
theorem hardResetAbandonsTheCommand : Obligations.HardResetAbandonsTheCommand := fun s _ hin =>
  ⟨_, step_of_hardReset hin, State.resetWith_irq s.cfg, rfl⟩

end Sys2Proof.Machine
end
